-- ==== Sys2Proof/Word.lean ====
section
/-! DEFINITION. The values of the timing registers and their modular arithmetic (00_scope.md R12, R13).

A register value is an unsigned integer in `[0, 2^width)` (R12), and the width of a timing register is the
build-time parameter `CLK_BITS` (R8, R9), open in the spec. So a value is a plain `Nat` (no synonym, so that
arithmetic decision procedures read it), and every computed value is reduced modulo `2^width` here. That each
register stays below `2^width` is an invariant of the machine (`RegistersInRange`). Log entry 1. -/

namespace Sys2Proof

/-- `n mod 2^bits`: what a `bits`-wide sample of the number `n` shows (R16, R121). -/
def wmod (bits n : Nat) : Nat := n % 2 ^ bits

/-- `a -w b`: `(a - b) mod 2^W`, the difference taken in the integers (R13). -/
def wsub (bits : Nat) (a b : Nat) : Nat := (((a : Int) - (b : Int)) % ((2 ^ bits : Nat) : Int)).toNat

/-- `a +w b`: `(a + b) mod 2^W` (R13). No operation of the block uses it. -/
def wadd (bits : Nat) (a b : Nat) : Nat := (a + b) % 2 ^ bits

end Sys2Proof
end

