-- ==== Sys2Proof/Config.lean ====
section
/-! DEFINITION. The build-time parameters of 00_scope.md R10 and the one free value.

R10 asks a model to take the table as its configuration and not as hard-wired numbers. A configuration is
plain data; the machine carries one in its state, where no step changes it (10_state.md R54). -/

namespace Sys2Proof

/-- The named parameters of R10, each with the table's default as its default value. -/
structure Config where
  /-- `NEUTRAL`: neutral pulse width, µs. -/
  neutral : Nat := 1500
  /-- `DB`: dead-band half-width, µs. -/
  db : Nat := 50
  /-- `DEAD_HIGH`: high dead-threshold, µs. -/
  deadHigh : Nat := 1775
  /-- `ABS_MAX`: absolute maximum, µs. -/
  absMax : Nat := 2000
  /-- `ABS_MIN`: absolute minimum, µs. -/
  absMin : Nat := 1000
  /-- `DEAD_LOW`: low dead-threshold, µs. -/
  deadLow : Nat := 1150
  /-- `CORR`: the inversion constant of the right channel, used by the mapper too. -/
  corr : Nat := 3000
  /-- `GATE_L_LT`: the pattern needs the left value below this. -/
  gateLLt : Nat := 1200
  /-- `GATE_R_GT`: the pattern needs the right value above this. -/
  gateRGt : Nat := 1700
  /-- `GATE_WINDOW`: how long the pattern must hold, µs. -/
  gateWindow : Nat := 10000
  /-- `GATE_TIMEOUT`: unconditional release after this long, µs. -/
  gateTimeout : Nat := 10000
  /-- `SPAN`: the duty divisor. -/
  span : Nat := 500
  /-- `DUTY_MAX`: full-scale duty. -/
  dutyMax : Nat := 255
  /-- `DUTY_BITS`: width of a duty register. -/
  dutyBits : Nat := 8
  /-- `CLK_BITS`: width of the clock sample, and `W` of every timing register (R8, R9). -/
  clkBits : Nat := 32
  deriving DecidableEq, Repr

/-- The parameters at the defaults of R10. Log entry 2: the literals are the source's, unaudited. -/
def Config.default : Config := {}

/-- FREE VALUE (log entry 8): the quotient `dividend div divisor` where R15 gives `div` no meaning, that is for
a negative dividend or a divisor of 0. With the default parameters it is never read. -/
opaque Config.unstatedQuotient (dividend : Int) (divisor : Nat) : Nat

end Sys2Proof
end

