-- ==== Sys2Proof/Syntax.lean ====
section
/-! DEFINITION. The syntax of the block's input: operations, operation words, stimuli and script lines
(30_encoding.md). -/

namespace Sys2Proof

/-- The two RC channels (00_scope.md R17: the letter `c`). -/
inductive Channel where
  | L
  | R
  deriving DecidableEq, Repr

/-- `c'`, the other channel (R17). -/
def Channel.other : Channel → Channel
  | .L => .R
  | .R => .L

/-- The agents of 60_exceptions.md R233. RESET is a step that all agents share (R250). -/
inductive Agent where
  | capL
  | capR
  | seq
  | all
  deriving DecidableEq, Repr

/-- The encoding formats: three of the stimulus byte (R91) and the phase code (R95). -/
inductive Format where
  | EV
  | SQ
  | RS
  | PH
  deriving DecidableEq, Repr

/-- The seventeen operations of R102, one per row of opcode_table.json. None has an operand field:
an edge's timestamp is not in its word (R96). -/
inductive Instr where
  /-- EDGE_FALL_L (40_capture.md R124). -/
  | edgeFallL
  /-- EDGE_RISE_L (R123). -/
  | edgeRiseL
  /-- EDGE_FALL_R (R127). -/
  | edgeFallR
  /-- EDGE_RISE_R (R126). -/
  | edgeRiseR
  /-- SEQ_STEP (41_gate.md R140). -/
  | seqStep
  /-- RESET (70_reset_and_hazards.md R250). -/
  | reset
  /-- GATE_START (41_gate.md R141). -/
  | gateStart
  /-- GATE_READ_L (R142). -/
  | gateReadL
  /-- GATE_READ_R (R143). -/
  | gateReadR
  /-- GATE_EVAL (R144). -/
  | gateEval
  /-- LOOP_READ_L (44_control_loop.md R201). -/
  | loopReadL
  /-- LOOP_READ_R (R202). -/
  | loopReadR
  /-- MAP_ZERO_L (43_mapper.md R186). -/
  | mapZeroL
  /-- MAP_DRIVE_L (R187). -/
  | mapDriveL
  /-- MAP_ZERO_R (R188). -/
  | mapZeroR
  /-- MAP_DRIVE_R (R189). -/
  | mapDriveR
  /-- LOOP_DIAG (44_control_loop.md R203). -/
  | loopDiag
  deriving DecidableEq, Repr

/-- The format of each row (R102). -/
def Instr.format : Instr → Format
  | .edgeFallL => .EV
  | .edgeRiseL => .EV
  | .edgeFallR => .EV
  | .edgeRiseR => .EV
  | .seqStep => .SQ
  | .reset => .RS
  | .gateStart => .PH
  | .gateReadL => .PH
  | .gateReadR => .PH
  | .gateEval => .PH
  | .loopReadL => .PH
  | .loopReadR => .PH
  | .mapZeroL => .PH
  | .mapDriveL => .PH
  | .mapZeroR => .PH
  | .mapDriveR => .PH
  | .loopDiag => .PH

/-- The agent of each row (R102). -/
def Instr.agent : Instr → Agent
  | .edgeFallL => .capL
  | .edgeRiseL => .capL
  | .edgeFallR => .capR
  | .edgeRiseR => .capR
  | .seqStep => .seq
  | .reset => .all
  | .gateStart => .seq
  | .gateReadL => .seq
  | .gateReadR => .seq
  | .gateEval => .seq
  | .loopReadL => .seq
  | .loopReadR => .seq
  | .mapZeroL => .seq
  | .mapDriveL => .seq
  | .mapZeroR => .seq
  | .mapDriveR => .seq
  | .loopDiag => .seq

/-- The two code spaces: the stimulus byte (R91) and the 4-bit phase code, which is state and not a word
the environment supplies (R95). -/
inductive Code where
  | stimulus (w : BitVec 8)
  | phase (p : BitVec 4)
  deriving DecidableEq, Repr

/-- Why a code spells no operation (R98). -/
inductive Reject where
  /-- A byte that R97 calls INVALID. -/
  | reservedWord
  /-- A phase code in 11 to 15. -/
  | reservedPhase
  deriving DecidableEq, Repr

/-- One stimulus: the pair `(w, t)` of R90, and the assertion a script line `SEQ:<MICRO>` adds (R100). -/
structure Stimulus where
  /-- The operation word. -/
  word : BitVec 8
  /-- The environment's time T at which it is applied. -/
  t : Nat
  /-- The micro-operation that `SEQ_PHASE` must select, if the script asserts one. -/
  expect : Option Instr := none
  deriving DecidableEq, Repr

/-- What one script line asks for (R100, R101). -/
inductive Directive where
  | edgeRise (c : Channel)
  | edgeFall (c : Channel)
  /-- Plain `SEQ`. -/
  | seq
  /-- `SEQ:<MICRO>`. -/
  | seqMicro (micro : Instr)
  | reset
  /-- `PULSE_c w`. -/
  | pulse (c : Channel) (w : Nat)
  | gateIter
  | loopIter
  deriving DecidableEq, Repr

/-- A script line `@<t> <MNEMONIC>` (R100). -/
structure ScriptLine where
  t : Nat
  what : Directive
  deriving DecidableEq, Repr

end Sys2Proof
end

