-- ==== Sys2Proof/WellFormed.lean ====
section
/-! DEFINITION. What makes a configuration, a stimulus, a stream of stimuli and a script well formed.

No operation has an operand field (30_encoding.md R96), so every `Instr` is well formed as it stands. -/

namespace Sys2Proof

/-- A number fits a register of `bits` bits (00_scope.md R12). -/
def fits (bits n : Nat) : Bool := decide (n < 2 ^ bits)

/-- The parameters can be built into a block: each µs parameter fits a W-bit register, the duty divisor is
not 0, and the full-scale duty fits a duty register. Log entry 10. -/
def Config.wf (c : Config) : Bool :=
  fits c.clkBits c.neutral && fits c.clkBits c.db && fits c.clkBits c.deadHigh && fits c.clkBits c.absMax
    && fits c.clkBits c.absMin && fits c.clkBits c.deadLow && fits c.clkBits c.corr
    && fits c.clkBits c.gateLLt && fits c.clkBits c.gateRGt && fits c.clkBits c.gateWindow
    && fits c.clkBits c.gateTimeout && decide (0 < c.span) && fits c.dutyBits c.dutyMax

/-- Micro-operations are the operations of format PH (R95). -/
def Instr.isMicro (i : Instr) : Bool := decide (i.format = .PH)

/-- A script assertion stands only on the SEQ word and names a micro-operation (R100). -/
def Stimulus.wf (x : Stimulus) : Bool :=
  match x.expect with
  | none => true
  | some m => m.isMicro && decide (x.word = 0x40#8)

/-- Times along a stream never decrease, from the time `T` on (R17, R90). -/
def timesFrom (T : Nat) : List Stimulus → Bool
  | [] => true
  | x :: rest => decide (T ≤ x.t) && timesFrom x.t rest

/-- A stream the environment may supply at time `T`. -/
def streamWf (T : Nat) (xs : List Stimulus) : Bool := timesFrom T xs && xs.all Stimulus.wf

/-- `SEQ:<MICRO>` names a micro-operation (R100). -/
def Directive.wf : Directive → Bool
  | .seqMicro m => m.isMicro
  | .edgeRise _ => true
  | .edgeFall _ => true
  | .seq => true
  | .reset => true
  | .pulse _ _ => true
  | .gateIter => true
  | .loopIter => true

/-- The lines of a script are in non-decreasing time (R100). -/
def linesFrom (T : Nat) : List ScriptLine → Bool
  | [] => true
  | x :: rest => decide (T ≤ x.t) && linesFrom x.t rest

/-- A well-formed script (R100). -/
def scriptWf (xs : List ScriptLine) : Bool := linesFrom 0 xs && xs.all fun x => x.what.wf

end Sys2Proof
end

