-- ==== Sys2Proof/Decode.lean ====
section
/-! DEFINITION. The decoder of 30_encoding.md R97 and the phase code of R95, the encoder of both, and the
host's table-word question. -/

namespace Sys2Proof

/-- `ch = w[1]`: 0 = L, 1 = R (R92). -/
def eventChannel (w : BitVec 8) : Channel := if w.getLsbD 1 then .R else .L

/-- The edge event of channel `ch` with the level `lvl` after the transition: 1 = rising (R92). -/
def edgeOf (ch : Channel) (lvl : Bool) : Instr :=
  match ch, lvl with
  | .L, false => .edgeFallL
  | .L, true => .edgeRiseL
  | .R, false => .edgeFallR
  | .R, true => .edgeRiseR

/-- The format that `w[7:6]` chooses; `11` is reserved (R91). -/
def formatOf (w : BitVec 8) : Option Format :=
  if w.extractLsb' 6 2 = 0b00#2 then some .EV
  else if w.extractLsb' 6 2 = 0b01#2 then some .SQ
  else if w.extractLsb' 6 2 = 0b10#2 then some .RS
  else none

/-- The stimulus decoder, total on every byte (R97). -/
def decodeByte (w : BitVec 8) : Except Reject Instr :=
  if w.extractLsb' 2 6 = 0#6 then .ok (edgeOf (eventChannel w) (w.getLsbD 0))
  else if w = 0x40#8 then .ok .seqStep
  else if w = 0x80#8 then .ok .reset
  else .error .reservedWord

/-- The micro-operation that the phase code `p` selects (R95); 11 to 15 are reserved (R98). -/
def decodePhase (p : BitVec 4) : Except Reject Instr :=
  match p.toNat with
  | 0 => .ok .gateStart
  | 1 => .ok .gateReadL
  | 2 => .ok .gateReadR
  | 3 => .ok .gateEval
  | 4 => .ok .loopReadL
  | 5 => .ok .loopReadR
  | 6 => .ok .mapZeroL
  | 7 => .ok .mapDriveL
  | 8 => .ok .mapZeroR
  | 9 => .ok .mapDriveR
  | 10 => .ok .loopDiag
  | _ => .error .reservedPhase

/-- Both decoders over the two code spaces. -/
def decode : Code → Except Reject Instr
  | .stimulus w => decodeByte w
  | .phase p => decodePhase p

/-- The code of each operation, from the table of R102. -/
def encode : Instr → Code
  | .edgeFallL => .stimulus 0x00#8
  | .edgeRiseL => .stimulus 0x01#8
  | .edgeFallR => .stimulus 0x02#8
  | .edgeRiseR => .stimulus 0x03#8
  | .seqStep => .stimulus 0x40#8
  | .reset => .stimulus 0x80#8
  | .gateStart => .phase 0#4
  | .gateReadL => .phase 1#4
  | .gateReadR => .phase 2#4
  | .gateEval => .phase 3#4
  | .loopReadL => .phase 4#4
  | .loopReadR => .phase 5#4
  | .mapZeroL => .phase 6#4
  | .mapDriveL => .phase 7#4
  | .mapZeroR => .phase 8#4
  | .mapDriveR => .phase 9#4
  | .loopDiag => .phase 10#4

/-- The format of a code. -/
def Code.format : Code → Option Format
  | .stimulus w => formatOf w
  | .phase _ => some .PH

/-- Which code space a word of opcode_table.json belongs to (log entry 11). A row of fewer than 8 bits is
a phase code. Eight bits are a stimulus byte whenever the byte decodes; a table word of eight bits that is
no stimulus row but whose upper four bits are 0 can only be a 4-bit phase row padded to a whole byte. -/
def tableCode (nbits w : Nat) : Option Code :=
  if nbits < 8 then (if w < 16 then some (.phase (BitVec.ofNat 4 w)) else none)
  else if 256 ≤ w then none
  else
    match decodeByte (BitVec.ofNat 8 w) with
    | .ok _ => some (.stimulus (BitVec.ofNat 8 w))
    | .error _ => if w < 16 then some (.phase (BitVec.ofNat 4 w)) else some (.stimulus (BitVec.ofNat 8 w))

/-- The operation a table word of `nbits` bits stands for, none where the decoder refuses. This answers the
host about ROWS OF THE TABLE; what a stimulus byte means is `decodeByte` alone (log entry 11). -/
def decodeTableWord (nbits w : Nat) : Option Instr :=
  match tableCode nbits w with
  | none => none
  | some code =>
    match decode code with
    | .ok i => some i
    | .error _ => none

end Sys2Proof
end

