-- ==== Sys2Proof/Machine/State.lean ====
section
/-! DEFINITION. The state of the block, the reasons a step can stop, and reset (10_state.md, 60_exceptions.md). -/

namespace Sys2Proof.Machine

/-- The status of a gate record: `INIT` when the pattern holds, `ERROR` otherwise (R150, R236). -/
inductive DiagStatus where
  | INIT
  | ERROR
  deriving DecidableEq, Repr

/-- The records of the diagnostic trace (60_exceptions.md R236). -/
inductive DiagRecord where
  /-- One per GATE_EVAL. -/
  | gateStatus (status : DiagStatus) (left right : Nat)
  /-- One per LOOP_DIAG. -/
  | loopReport (left right : Nat)
  deriving DecidableEq, Repr

/-- The faults of the block: none. It raises no exception and every operation is total on every state
(60_exceptions.md R220), so nothing raises one, which is safe. -/
inductive Fault where
  deriving DecidableEq, Repr

/-- Why a step is refused. No refusal is a behaviour of the hardware (60_exceptions.md R221): each marks a
run the block does not have, so a refusal is safe. -/
inductive Refusal where
  /-- The host's name for an instruction without a meaning. No arm of `exec` uses it. -/
  | notModelled (mnemonic : String)
  /-- Raised by `step` for a stimulus byte that R97 calls INVALID (R98). Safe: no such input exists. -/
  | reservedWord
  /-- Raised by SEQ_STEP while `SEQ_PHASE` is in 11 to 15 (R98). Safe: no operation reaches those values. -/
  | reservedPhase
  /-- Raised by `step` for a `SEQ:<MICRO>` stimulus whose phase does not match (R100). Safe: the script is
  ill-formed. -/
  | scriptAssertion
  /-- Raised by `step` for a stimulus whose time lies before the time already reached: T never decreases
  (R17, R90, R235). Safe: the environment supplies no such stream. Log entry 5. -/
  | timeReversed
  deriving DecidableEq, Repr

/-- The state: every register of 10_state.md, and the model's own fields `cfg`, `time` and `stimuli`. -/
structure State where
  /-- The build-time parameters (00_scope.md R10); no step changes them (R54). -/
  cfg : Config
  /-- The environment's time T in µs (R16, R230); the block sees only its sample. -/
  time : Nat
  /-- The stimuli still to come (30_encoding.md R90). -/
  stimuli : List Stimulus
  /-- `TS_L`: timestamp of channel L's latest rising edge (R32). -/
  tsL : Nat
  /-- `REF_L`: the measured high time (R33). -/
  refL : Nat
  /-- `COND_L`: the conditioned value (R34). -/
  condL : Nat
  /-- `TS_R` (R32). -/
  tsR : Nat
  /-- `REF_R`: the inverted reading (R33). -/
  refR : Nat
  /-- `COND_R` (R34). -/
  condR : Nat
  /-- `SEQ_PHASE`: the sequencer's program counter (R40). -/
  seqPhase : BitVec 4
  /-- `GATE_T0`: the clock sample at which the gate started (R41). -/
  gateT0 : Nat
  /-- `STREAK_T0`: the origin of the "continuously held" timer (R42). -/
  streakT0 : Nat
  /-- `CAUSE`: why the gate released (R43). -/
  cause : BitVec 2
  /-- `SNAP_L`: the sequencer's copy of `COND_L` (R44). -/
  snapL : Nat
  /-- `SNAP_R` (R44). -/
  snapR : Nat
  /-- `PWM_L_A`: motor L's FORWARD line (R50). -/
  pwmLA : Nat
  /-- `PWM_L_B`: motor L's BACKWARD line (R50). -/
  pwmLB : Nat
  /-- `PWM_R_A` (R50). -/
  pwmRA : Nat
  /-- `PWM_R_B` (R50). -/
  pwmRB : Nat
  /-- `EN_L`: motor driver L's enable line (R51). -/
  enL : Bool
  /-- `EN_R` (R51). -/
  enR : Bool
  /-- `DIAG`: the diagnostic trace, oldest record first (R52, R236). -/
  diag : List DiagRecord
  deriving DecidableEq, Repr

/-- The block with every register at its reset value (R55), built with the parameters `c`, at the
environment's time `T`, with the stimuli `xs` still to come. -/
def State.initial (c : Config) (T : Nat) (xs : List Stimulus) : State where
  cfg := c
  time := T
  stimuli := xs
  tsL := 0
  refL := 0
  condL := 0
  tsR := 0
  refR := 0
  condR := 0
  seqPhase := 0#4
  gateT0 := 0
  streakT0 := 0
  cause := 0#2
  snapL := 0
  snapR := 0
  pwmLA := 0
  pwmLB := 0
  pwmRA := 0
  pwmRB := 0
  enL := false
  enR := false
  diag := []

/-- The machine right after power-on: R55, with the default parameters (log entry 2), T = 0 (log entry 6)
and no stimulus placed (log entry 3). -/
def State.reset : State := State.initial Config.default 0 []

end Sys2Proof.Machine
end

