-- ==== Sys2Proof/Machine/Conditioner.lean ====
section
/-! DEFINITION. The signal conditioner `Cond` (42_conditioner.md). -/

namespace Sys2Proof.Machine

/-- Rule 1, the dead-band `NEUTRAL - DB < v < NEUTRAL + DB`, exclusive at both ends (R161). The lower bound
is compared in the integers: no wrap when `DB` exceeds `NEUTRAL` (log entry 9). -/
def inDeadBand (c : Config) (v : Nat) : Bool := decide (c.neutral < v + c.db) && decide (v < c.neutral + c.db)

/-- Rule 2, high saturation: `DEAD_HIGH < v < ABS_MAX` (R162). -/
def inHighSaturation (c : Config) (v : Nat) : Bool := decide (c.deadHigh < v) && decide (v < c.absMax)

/-- Rule 3, low saturation: `ABS_MIN < v < DEAD_LOW` (R163). -/
def inLowSaturation (c : Config) (v : Nat) : Bool := decide (c.absMin < v) && decide (v < c.deadLow)

/-- Rule 4, the failsafe: `v < ABS_MIN` or `v > ABS_MAX` (R164). -/
def outOfRange (c : Config) (v : Nat) : Bool := decide (v < c.absMin) || decide (c.absMax < v)

/-- `Cond(v)`: the first matching rule, else pass-through (R160, R165). -/
def cond (c : Config) (v : Nat) : Nat :=
  if inDeadBand c v then c.neutral
  else if inHighSaturation c v then c.absMax
  else if inLowSaturation c v then c.absMin
  else if outOfRange c v then c.neutral
  else v

end Sys2Proof.Machine
end

