-- ==== Sys2Proof/Machine/Operands.lean ====
section
/-! DEFINITION. The operands: the clock sample, and the registers by channel and by motor line. -/

namespace Sys2Proof.Machine

/-- The two directions (43_mapper.md R180). -/
inductive Direction where
  | backward
  | forward
  deriving DecidableEq, Repr

/-- The encoding of a direction: `BACKWARD` = 0, `FORWARD` = 1 (R45, R180). -/
def Direction.code : Direction → BitVec 1
  | .backward => 0#1
  | .forward => 1#1

/-- `not d` (R184). -/
def Direction.opposite : Direction → Direction
  | .backward => .forward
  | .forward => .backward

/-- The clock sample a step takes, `T mod 2^CLK_BITS`: `now` of a sequencer step (R16, R230) and `ev.t` of
an edge event, whose operation takes no other sample (R121). -/
def State.now (s : State) : Nat := wmod s.cfg.clkBits s.time

/-- `TS_c` (R32). -/
def State.ts (s : State) : Channel → Nat
  | .L => s.tsL
  | .R => s.tsR

/-- `REF_c` (R33). -/
def State.ref (s : State) : Channel → Nat
  | .L => s.refL
  | .R => s.refR

/-- `COND_c` (R34). A read changes nothing (R74). -/
def State.condOf (s : State) : Channel → Nat
  | .L => s.condL
  | .R => s.condR

/-- `SNAP_c` (R44). -/
def State.snap (s : State) : Channel → Nat
  | .L => s.snapL
  | .R => s.snapR

/-- The line `Sel(c, d)`: `PWM_c_A` for FORWARD, `PWM_c_B` for BACKWARD (R184). -/
def State.sel (s : State) : Channel → Direction → Nat
  | .L, .forward => s.pwmLA
  | .L, .backward => s.pwmLB
  | .R, .forward => s.pwmRA
  | .R, .backward => s.pwmRB

/-- The line `Other(c, d) = Sel(c, not d)` (R184). -/
def State.otherLine (s : State) (c : Channel) (d : Direction) : Nat := s.sel c d.opposite

/-- `a -w b` at the block's width (R13). -/
def State.sub (s : State) (a b : Nat) : Nat := wsub s.cfg.clkBits a b

/-- The time since channel c's latest rising edge: `ev.t -w TS_c` (R124, R125). -/
def State.measured (s : State) (c : Channel) : Nat := s.sub s.now (s.ts c)

end Sys2Proof.Machine
end

