-- ==== Sys2Proof/Machine/Flags.lean ====
section
/-! DEFINITION. The derived values of 10_state.md R45. The block stores no flag: `PAT`, `Dir` and the record
status are computed inside one step. The mapper's magnitude and duty stand here too (43_mapper.md). -/

namespace Sys2Proof.Machine

/-- `PAT`: `SNAP_L < GATE_L_LT and SNAP_R > GATE_R_GT`, both strict (R45, R144 (d)). -/
def gatePattern (c : Config) (left right : Nat) : Bool := decide (left < c.gateLLt) && decide (c.gateRGt < right)

/-- The status of a gate record equals `PAT` (R45, R150). -/
def gateStatusOf (pat : Bool) : DiagStatus := if pat then .INIT else .ERROR

/-- `Dir(v)`: FORWARD if `v > NEUTRAL`, else BACKWARD (R180). -/
def dir (c : Config) (v : Nat) : Direction := if c.neutral < v then .forward else .backward

/-- `Mag(v)`, exact in the integers (R15, R181). Below neutral the formula keeps `CORR` as written. -/
def mag (c : Config) (v : Nat) : Int :=
  if v = c.neutral then 0
  else if c.neutral < v then (v : Int) - c.neutral
  else ((c.corr : Int) - v) - c.neutral

/-- `a div b`, floor division of non-negative integers (R15). For a negative dividend or a divisor of 0, which
need non-default parameters, the spec states no value: the free value of log entry 8. -/
def floorDiv (a : Int) (b : Nat) : Nat := if 0 ≤ a ∧ 0 < b then a.toNat / b else Config.unstatedQuotient a b

/-- `(Mag(v) * DUTY_MAX) div SPAN`, in exact integers with no wrap (R15, R182). -/
def dutyQuotient (c : Config) (m : Int) : Nat := floorDiv (m * c.dutyMax) c.span

/-- `Duty(v)`: 0 at neutral, else the quotient limited to `DUTY_MAX` (R182, R183). -/
def duty (c : Config) (v : Nat) : Nat := if v = c.neutral then 0 else min c.dutyMax (dutyQuotient c (mag c v))

end Sys2Proof.Machine
end

