-- ==== Sys2Proof/Machine/Ops.lean ====
section
/-! DEFINITION. The named operations over the registers: one writer per register (each moves the register's
whole width in one access, 20_memory.md R73), `Emit`, the conditioner's invocation, `RELEASE` and the reset
of the block. The block has no exceptions, so there is no exception entry and no return (R220, R227); an
edge event saves nothing and changes no sequencer register (R226). -/

namespace Sys2Proof.Machine

/-- `PH_GSTART` (R40). -/
@[simp] abbrev phGStart : BitVec 4 := 0#4
/-- `PH_GREAD_L` (R40). -/
@[simp] abbrev phGReadL : BitVec 4 := 1#4
/-- `PH_GREAD_R` (R40). -/
@[simp] abbrev phGReadR : BitVec 4 := 2#4
/-- `PH_GEVAL` (R40). -/
@[simp] abbrev phGEval : BitVec 4 := 3#4
/-- `PH_LREAD_L` (R40). -/
@[simp] abbrev phLReadL : BitVec 4 := 4#4
/-- `PH_LREAD_R` (R40). -/
@[simp] abbrev phLReadR : BitVec 4 := 5#4
/-- `PH_ZERO_L` (R40). -/
@[simp] abbrev phZeroL : BitVec 4 := 6#4
/-- `PH_DRIVE_L` (R40). -/
@[simp] abbrev phDriveL : BitVec 4 := 7#4
/-- `PH_ZERO_R` (R40). -/
@[simp] abbrev phZeroR : BitVec 4 := 8#4
/-- `PH_DRIVE_R` (R40). -/
@[simp] abbrev phDriveR : BitVec 4 := 9#4
/-- `PH_LDIAG` (R40). -/
@[simp] abbrev phLDiag : BitVec 4 := 10#4

/-- `CAUSE` = `NONE`: not yet released (R43). -/
@[simp] abbrev causeNone : BitVec 2 := 0#2
/-- `CAUSE` = `PATTERN`: the streak reached `GATE_WINDOW` (R43). -/
@[simp] abbrev causePattern : BitVec 2 := 1#2
/-- `CAUSE` = `TIMEOUT`: `GATE_TIMEOUT` passed without a complete streak (R43). -/
@[simp] abbrev causeTimeout : BitVec 2 := 2#2

/-- `TS_c <- v`. -/
def State.writeTs (s : State) (c : Channel) (v : Nat) : State :=
  match c with
  | .L => { s with tsL := v }
  | .R => { s with tsR := v }

/-- `REF_c <- v`. -/
def State.writeRef (s : State) (c : Channel) (v : Nat) : State :=
  match c with
  | .L => { s with refL := v }
  | .R => { s with refR := v }

/-- `COND_c <- v`; it overwrites, and there is no queue (R79). -/
def State.writeCond (s : State) (c : Channel) (v : Nat) : State :=
  match c with
  | .L => { s with condL := v }
  | .R => { s with condR := v }

/-- `SNAP_c <- v`. -/
def State.writeSnap (s : State) (c : Channel) (v : Nat) : State :=
  match c with
  | .L => { s with snapL := v }
  | .R => { s with snapR := v }

/-- `Sel(c, d) <- v`: line A is FORWARD, line B is BACKWARD (R50, R184). -/
def State.writeLine (s : State) (c : Channel) (d : Direction) (v : Nat) : State :=
  match c, d with
  | .L, .forward => { s with pwmLA := v }
  | .L, .backward => { s with pwmLB := v }
  | .R, .forward => { s with pwmRA := v }
  | .R, .backward => { s with pwmRB := v }

/-- `SEQ_PHASE <- p`. -/
def State.writePhase (s : State) (p : BitVec 4) : State := { s with seqPhase := p }

/-- `GATE_T0 <- v`. -/
def State.writeGateT0 (s : State) (v : Nat) : State := { s with gateT0 := v }

/-- `STREAK_T0 <- v`. -/
def State.writeStreakT0 (s : State) (v : Nat) : State := { s with streakT0 := v }

/-- `CAUSE <- v`. -/
def State.writeCause (s : State) (v : BitVec 2) : State := { s with cause := v }

/-- `EN_L <- v; EN_R <- v`: the two lines are always written together (R51). -/
def State.writeEnables (s : State) (v : Bool) : State := { s with enL := v, enR := v }

/-- `Emit(rec)`: append to the end of `DIAG` (R236). -/
def State.emit (s : State) (r : DiagRecord) : State := { s with diag := s.diag ++ [r] }

/-- Store a derived reading and invoke the conditioner on it: `REF_c <- v; COND_c <- Cond(v)` (R124, R125). -/
def State.condition (s : State) (c : Channel) (v : Nat) : State := (s.writeRef c v).writeCond c (cond s.cfg v)

/-- `RIGHT_COMMON(ev)`: the inverted reading, conditioned, on every right transition (R125). -/
def State.rightCommon (s : State) : State := s.condition .R (s.sub s.cfg.corr (s.measured .R))

/-- `SNAP_c <- COND_c; SEQ_PHASE <- p`: one read of a conditioned value (R142, R143, R201, R202). -/
def State.takeSnapshot (s : State) (c : Channel) (p : BitVec 4) : State := (s.writeSnap c (s.condOf c)).writePhase p

/-- Why this evaluation releases, `NONE` if it does not: the pattern is checked first, both comparisons are
`>=` against one sample of `now` (R144 (b), (c)). -/
def State.gateVerdict (s : State) : BitVec 2 :=
  if gatePattern s.cfg s.snapL s.snapR && decide (s.cfg.gateWindow ≤ s.sub s.now s.streakT0) then causePattern
  else if s.cfg.gateTimeout ≤ s.sub s.now s.gateT0 then causeTimeout
  else causeNone

/-- `RELEASE(rel)`: the release is permanent and enters the control loop (R145). -/
def State.release (s : State) (rel : BitVec 2) : State := ((s.writeCause rel).writeEnables true).writePhase phLReadL

/-- `Other(c, Dir(SNAP_c)) <- 0; SEQ_PHASE <- p` (R184, R186, R188). -/
def State.zeroOther (s : State) (c : Channel) (p : BitVec 4) : State :=
  (s.writeLine c (dir s.cfg (s.snap c)).opposite 0).writePhase p

/-- `Sel(c, Dir(SNAP_c)) <- Duty(SNAP_c); SEQ_PHASE <- p` (R184, R187, R189). -/
def State.driveSelected (s : State) (c : Channel) (p : BitVec 4) : State :=
  (s.writeLine c (dir s.cfg (s.snap c)) (duty s.cfg (s.snap c))).writePhase p

/-- Every register to its reset value (R250, R55). The parameters are the build's, and the clock and the
stimuli are the environment's: reset does not move the clock (R263), log entry 6. -/
def State.resetBlock (s : State) : State := State.initial s.cfg s.time s.stimuli

end Sys2Proof.Machine
end

