-- ==== Sys2Proof/Machine/Capture.lean ====
section
/-! DEFINITION. The four edge operations of `CAP_L` and `CAP_R` (40_capture.md). The two channels use
different formulas, kept as written (R128). -/

namespace Sys2Proof.Machine

/-- EDGE_RISE_L: `TS_L <- ev.t`; the conditioner is not invoked (R123). -/
def execEdgeRiseL (s : State) : Host.Outcome State Fault Refusal := .next (s.writeTs .L s.now)

/-- EDGE_FALL_L: `measured = ev.t -w TS_L`, stored and conditioned (R124). -/
def execEdgeFallL (s : State) : Host.Outcome State Fault Refusal := .next (s.condition .L (s.measured .L))

/-- EDGE_RISE_R: `TS_R <- ev.t`, then the common computation (R126). -/
def execEdgeRiseR (s : State) : Host.Outcome State Fault Refusal := .next (s.writeTs .R s.now).rightCommon

/-- EDGE_FALL_R: the common computation without touching `TS_R` (R127). -/
def execEdgeFallR (s : State) : Host.Outcome State Fault Refusal := .next s.rightCommon

end Sys2Proof.Machine
end

