-- ==== Sys2Proof/Machine/Gate.lean ====
section
/-! DEFINITION. The micro-operations of the startup gate (41_gate.md). -/

namespace Sys2Proof.Machine

/-- GATE_START: `GATE_T0 <- now; STREAK_T0 <- now; SEQ_PHASE <- 1` (R141). -/
def execGateStart (s : State) : Host.Outcome State Fault Refusal :=
  .next (((s.writeGateT0 s.now).writeStreakT0 s.now).writePhase phGReadL)

/-- GATE_READ_L: `SNAP_L <- COND_L; SEQ_PHASE <- 2` (R142). -/
def execGateReadL (s : State) : Host.Outcome State Fault Refusal := .next (s.takeSnapshot .L phGReadR)

/-- GATE_READ_R: `SNAP_R <- COND_R; SEQ_PHASE <- 3` (R143). -/
def execGateReadR (s : State) : Host.Outcome State Fault Refusal := .next (s.takeSnapshot .R phGEval)

/-- The record and the streak origin of one evaluation: the record always, the origin moved to `now` when
the pattern is false (R144, R150). -/
def State.gateObserve (s : State) : State :=
  let recorded := s.emit (.gateStatus (gateStatusOf (gatePattern s.cfg s.snapL s.snapR)) s.snapL s.snapR)
  if gatePattern s.cfg s.snapL s.snapR then recorded else recorded.writeStreakT0 s.now

/-- GATE_EVAL: one check of the pattern; it releases the gate or goes back to phase 1 (R144, R145). -/
def execGateEval (s : State) : Host.Outcome State Fault Refusal :=
  if s.gateVerdict = causeNone then .next (s.gateObserve.writePhase phGReadL)
  else .next (s.gateObserve.release s.gateVerdict)

end Sys2Proof.Machine
end

