-- ==== Sys2Proof/Machine/Loop.lean ====
section
/-! DEFINITION. The control loop's own micro-operations (44_control_loop.md). -/

namespace Sys2Proof.Machine

/-- LOOP_READ_L: `SNAP_L <- COND_L; SEQ_PHASE <- 5` (R201). -/
def execLoopReadL (s : State) : Host.Outcome State Fault Refusal := .next (s.takeSnapshot .L phLReadR)

/-- LOOP_READ_R: `SNAP_R <- COND_R; SEQ_PHASE <- 6` (R202). -/
def execLoopReadR (s : State) : Host.Outcome State Fault Refusal := .next (s.takeSnapshot .R phZeroL)

/-- LOOP_DIAG: report the two snapshots the iteration used; `SEQ_PHASE <- 4` (R203). -/
def execLoopDiag (s : State) : Host.Outcome State Fault Refusal :=
  .next ((s.emit (.loopReport s.snapL s.snapR)).writePhase phLReadL)

end Sys2Proof.Machine
end

