-- ==== Sys2Proof/Machine/Mapper.lean ====
section
/-! DEFINITION. The four output-drive micro-operations (43_mapper.md). The line not selected is zeroed
before the selected one is driven, both from one snapshot (R184, R264). -/

namespace Sys2Proof.Machine

/-- MAP_ZERO_L (R186). -/
def execMapZeroL (s : State) : Host.Outcome State Fault Refusal := .next (s.zeroOther .L phDriveL)

/-- MAP_DRIVE_L (R187). -/
def execMapDriveL (s : State) : Host.Outcome State Fault Refusal := .next (s.driveSelected .L phZeroR)

/-- MAP_ZERO_R (R188). -/
def execMapZeroR (s : State) : Host.Outcome State Fault Refusal := .next (s.zeroOther .R phDriveR)

/-- MAP_DRIVE_R (R189). -/
def execMapDriveR (s : State) : Host.Outcome State Fault Refusal := .next (s.driveSelected .R phLDiag)

end Sys2Proof.Machine
end

