-- ==== Sys2Proof/Machine/Sequencer.lean ====
section
/-! DEFINITION. The sequencer's dispatch SEQ_STEP (41_gate.md R140) and RESET (70_reset_and_hazards.md R250). -/

namespace Sys2Proof.Machine

/-- SEQ_STEP: perform the one micro-operation that `SEQ_PHASE` selects; phases 11 to 15 are refused (R140, R98). -/
def execSeqStep (s : State) : Host.Outcome State Fault Refusal :=
  match s.seqPhase.toNat with
  | 0 => execGateStart s
  | 1 => execGateReadL s
  | 2 => execGateReadR s
  | 3 => execGateEval s
  | 4 => execLoopReadL s
  | 5 => execLoopReadR s
  | 6 => execMapZeroL s
  | 7 => execMapDriveL s
  | 8 => execMapZeroR s
  | 9 => execMapDriveR s
  | 10 => execLoopDiag s
  | _ => .refused .reservedPhase

/-- RESET: every piece of state to its reset value, in one step (R250). -/
def execReset (s : State) : Host.Outcome State Fault Refusal := .next s.resetBlock

end Sys2Proof.Machine
end

