-- ==== Sys2Proof/Machine/Dispatch.lean ====
section
/-! DEFINITION. One arm per operation, each one direct call of its meaning. -/

namespace Sys2Proof.Machine

def exec (i : Instr) (s : State) : Host.Outcome State Fault Refusal :=
  match i with
  | .edgeFallL => Sys2Proof.Machine.execEdgeFallL s
  | .edgeRiseL => Sys2Proof.Machine.execEdgeRiseL s
  | .edgeFallR => Sys2Proof.Machine.execEdgeFallR s
  | .edgeRiseR => Sys2Proof.Machine.execEdgeRiseR s
  | .seqStep => Sys2Proof.Machine.execSeqStep s
  | .reset => Sys2Proof.Machine.execReset s
  | .gateStart => Sys2Proof.Machine.execGateStart s
  | .gateReadL => Sys2Proof.Machine.execGateReadL s
  | .gateReadR => Sys2Proof.Machine.execGateReadR s
  | .gateEval => Sys2Proof.Machine.execGateEval s
  | .loopReadL => Sys2Proof.Machine.execLoopReadL s
  | .loopReadR => Sys2Proof.Machine.execLoopReadR s
  | .mapZeroL => Sys2Proof.Machine.execMapZeroL s
  | .mapDriveL => Sys2Proof.Machine.execMapDriveL s
  | .mapZeroR => Sys2Proof.Machine.execMapZeroR s
  | .mapDriveR => Sys2Proof.Machine.execMapDriveR s
  | .loopDiag => Sys2Proof.Machine.execLoopDiag s

end Sys2Proof.Machine
end

