-- ==== Sys2Proof/Machine/Fetch.lean ====
section
/-! DEFINITION. Taking the next stimulus from the stream (30_encoding.md R90, R97, R98, R100). -/

namespace Sys2Proof.Machine

/-- What the next stimulus asks of the block. -/
inductive Fetched where
  /-- No stimulus is left: no agent takes a step (R233). -/
  | idle
  /-- The stimulus has no meaning here (R98, R100, R17). -/
  | refuse (r : Refusal)
  /-- Perform `i` at the state `s`, where the stimulus is taken and T is its time. -/
  | run (i : Instr) (s : State)
  deriving DecidableEq, Repr

/-- The micro-operation that `SEQ_PHASE` selects, none if reserved (R95). -/
def State.selected (s : State) : Option Instr :=
  match decodePhase s.seqPhase with
  | .ok i => some i
  | .error _ => none

/-- The script assertion of a stimulus holds at `s` (R100). -/
def Stimulus.holds (x : Stimulus) (s : State) : Bool :=
  match x.expect with
  | none => true
  | some m => decide (s.selected = some m)

/-- The state in which the stimulus `x` is performed: T is its time, and `rest` is still to come. -/
def State.advance (s : State) (x : Stimulus) (rest : List Stimulus) : State := { s with time := x.t, stimuli := rest }

/-- Judge the next stimulus: its time first, then its word, then its assertion (log entry 7). -/
def State.take (s : State) (x : Stimulus) (rest : List Stimulus) : Fetched :=
  if x.t < s.time then .refuse .timeReversed
  else
    match decodeByte x.word with
    | .error _ => .refuse .reservedWord
    | .ok i => if Stimulus.holds x s then .run i (s.advance x rest) else .refuse .scriptAssertion

/-- The next stimulus of the stream. -/
def State.fetch (s : State) : Fetched :=
  match s.stimuli with
  | [] => .idle
  | x :: rest => s.take x rest

/-- Put a stimulus with the word `w`, at the time already reached, before the ones still to come. -/
def State.pushWord (s : State) (w : BitVec 8) : State := { s with stimuli := ⟨w, s.time, none⟩ :: s.stimuli }

/-- Place a code where the next step takes it: a stimulus byte in front of the stream; a phase code as the
value of `SEQ_PHASE`, with the SEQ_STEP word 0x40 that performs it (R93, R95; log entry 12). -/
def State.placeCode (s : State) : Code → State
  | .stimulus w => s.pushWord w
  | .phase p => (s.writePhase p).pushWord 0x40#8

/-- Place a word of the opcode table. A number that is no table word at all leaves the state as it is. -/
def State.placeTableWord (s : State) (nbits w : Nat) : State :=
  match tableCode nbits w with
  | none => s
  | some code => s.placeCode code

end Sys2Proof.Machine
end

