-- ==== Sys2Proof/Machine/Step.lean ====
section
/-! DEFINITION. One step of the block: the next stimulus, performed whole (00_scope.md R17, 30_encoding.md R90). -/

namespace Sys2Proof.Machine

/-- One stimulus performed as one atomic step of the agent it names (R90). With no stimulus left no agent
steps and the state stays as it is: the block never halts (R239, log entry 4). -/
def step (s : State) : Host.Outcome State Fault Refusal :=
  match s.fetch with
  | .idle => .next s
  | .refuse r => .refused r
  | .run i s' => exec i s'

/-- `s` with the table word `w` where the next step takes its instruction (log entries 3, 11 and 12). -/
def State.withFetchWord (s : State) (nbits w : Nat) : State := s.placeTableWord nbits w

end Sys2Proof.Machine
end

