-- ==== Sys2Proof/Machine/Script.lean ====
section
/-! DEFINITION. Stimulus scripts: expansion of the pseudo-operations, the stable order by time, and loading a
script as the environment's stream (30_encoding.md R100, R101). -/

namespace Sys2Proof.Machine

/-- The stimulus byte of a directive's operation: an operation of format PH is asked for by the SEQ word (R100). -/
def scriptWord (i : Instr) : BitVec 8 :=
  match encode i with
  | .stimulus w => w
  | .phase _ => 0x40#8

/-- The line `@t SEQ:<MICRO>`: the SEQ word with the assertion (R100). -/
def seqAsserting (t : Nat) (micro : Instr) : Stimulus := ⟨0x40#8, t, some micro⟩

/-- The line of a stimulus operation, without assertion. -/
def plainStimulus (t : Nat) (i : Instr) : Stimulus := ⟨scriptWord i, t, none⟩

/-- The rising edge of a channel. -/
def riseOf : Channel → Instr
  | .L => .edgeRiseL
  | .R => .edgeRiseR

/-- The falling edge of a channel. -/
def fallOf : Channel → Instr
  | .L => .edgeFallL
  | .R => .edgeFallR

/-- `GATE_ITER` (R101). -/
def gateIteration : List Instr := [.gateReadL, .gateReadR, .gateEval]

/-- `LOOP_ITER` (R101). -/
def loopIteration : List Instr := [.loopReadL, .loopReadR, .mapZeroL, .mapDriveL, .mapZeroR, .mapDriveR, .loopDiag]

/-- The expansion of one line (R101). -/
def expandLine (x : ScriptLine) : List Stimulus :=
  match x.what with
  | .edgeRise c => [plainStimulus x.t (riseOf c)]
  | .edgeFall c => [plainStimulus x.t (fallOf c)]
  | .seq => [plainStimulus x.t .seqStep]
  | .seqMicro m => [seqAsserting x.t m]
  | .reset => [plainStimulus x.t .reset]
  | .pulse c w => [plainStimulus x.t (riseOf c), plainStimulus (x.t + w) (fallOf c)]
  | .gateIter => gateIteration.map (seqAsserting x.t)
  | .loopIter => loopIteration.map (seqAsserting x.t)

/-- Insert a stimulus before the first one that is not earlier. -/
def insertByTime (x : Stimulus) : List Stimulus → List Stimulus
  | [] => [x]
  | y :: rest => if x.t ≤ y.t then x :: y :: rest else y :: insertByTime x rest

/-- The stable order by time: equal times keep script order (R100, R101). -/
def sortByTime (xs : List Stimulus) : List Stimulus := xs.foldr insertByTime []

/-- The stream a script stands for; none if the script is ill formed (R100). -/
def scriptStimuli (xs : List ScriptLine) : Option (List Stimulus) :=
  if scriptWf xs then some (sortByTime (xs.flatMap expandLine)) else none

/-- `s` with a script as the environment's stream. -/
def State.loadScript (s : State) (xs : List ScriptLine) : Option State :=
  (scriptStimuli xs).map fun stream => { s with stimuli := stream }

end Sys2Proof.Machine
end

