-- ==== Sys2Proof/Machine/ScriptText.lean ====
section
/-! DEFINITION. The text of a stimulus script: `@<t> <MNEMONIC>`, one stimulus per line, comments after `;`
(30_encoding.md R100, R101). A text is a list of characters, so that Lean's kernel can read one. -/

namespace Sys2Proof.Machine

/-- The mnemonic of each operation, letter for letter as in R102. -/
def mnemonicOf : Instr → String
  | .edgeFallL => "EDGE_FALL_L"
  | .edgeRiseL => "EDGE_RISE_L"
  | .edgeFallR => "EDGE_FALL_R"
  | .edgeRiseR => "EDGE_RISE_R"
  | .seqStep => "SEQ_STEP"
  | .reset => "RESET"
  | .gateStart => "GATE_START"
  | .gateReadL => "GATE_READ_L"
  | .gateReadR => "GATE_READ_R"
  | .gateEval => "GATE_EVAL"
  | .loopReadL => "LOOP_READ_L"
  | .loopReadR => "LOOP_READ_R"
  | .mapZeroL => "MAP_ZERO_L"
  | .mapDriveL => "MAP_DRIVE_L"
  | .mapZeroR => "MAP_ZERO_R"
  | .mapDriveR => "MAP_DRIVE_R"
  | .loopDiag => "LOOP_DIAG"

/-- The micro-operations of R95, in the order of their phase codes. -/
def microOps : List Instr :=
  [.gateStart, .gateReadL, .gateReadR, .gateEval, .loopReadL, .loopReadR, .mapZeroL, .mapDriveL, .mapZeroR,
    .mapDriveR, .loopDiag]

/-- The spellings of the directives without a number (R100, R101). -/
def plainSpellings : List (List Char × Directive) :=
  [("EDGE_RISE_L".toList, .edgeRise .L), ("EDGE_FALL_L".toList, .edgeFall .L),
    ("EDGE_RISE_R".toList, .edgeRise .R), ("EDGE_FALL_R".toList, .edgeFall .R),
    ("SEQ".toList, .seq), ("RESET".toList, .reset),
    ("GATE_ITER".toList, .gateIter), ("LOOP_ITER".toList, .loopIter)]
    ++ microOps.map fun m => ("SEQ:".toList ++ (mnemonicOf m).toList, .seqMicro m)

/-- The spellings of the directives with a width (R101). -/
def pulseSpellings : List (List Char × Channel) := [("PULSE_L".toList, .L), ("PULSE_R".toList, .R)]

/-- What a spelling stands for. -/
def lookupSpelling {α : Type} (name : List Char) : List (List Char × α) → Option α
  | [] => none
  | (n, a) :: rest => if n = name then some a else lookupSpelling name rest

/-- The pieces of a text between occurrences of `sep`. -/
def pieces (sep : Char) : List Char → List (List Char)
  | [] => [[]]
  | c :: cs =>
    if c = sep then [] :: pieces sep cs
    else
      match pieces sep cs with
      | [] => [[c]]
      | w :: ws => (c :: w) :: ws

/-- A line without its comment (R100). -/
def withoutComment : List Char → List Char
  | [] => []
  | c :: cs => if c = ';' then [] else c :: withoutComment cs

/-- The words of a line: its pieces between spaces, empty ones dropped. -/
def wordsOf (line : List Char) : List (List Char) := (pieces ' ' (withoutComment line)).filter fun w => !w.isEmpty

/-- The value of a decimal digit. -/
def digitValue (c : Char) : Option Nat := if '0'.toNat ≤ c.toNat ∧ c.toNat ≤ '9'.toNat then some (c.toNat - '0'.toNat) else none

/-- A decimal number read on from `acc`. -/
def readDigits (acc : Nat) : List Char → Option Nat
  | [] => some acc
  | c :: cs =>
    match digitValue c with
    | none => none
    | some d => readDigits (10 * acc + d) cs

/-- A decimal number, at least one digit. -/
def readNumber (cs : List Char) : Option Nat := if cs.isEmpty then none else readDigits 0 cs

/-- The time word `@<t>` (R100). -/
def readTime : List Char → Option Nat
  | [] => none
  | c :: cs => if c = '@' then readNumber cs else none

/-- The directive spelled by the words after the time. -/
def readDirective : List (List Char) → Option Directive
  | [name] => lookupSpelling name plainSpellings
  | [name, width] =>
    match lookupSpelling name pulseSpellings, readNumber width with
    | some c, some w => some (.pulse c w)
    | _, _ => none
  | _ => none

/-- One line of text: no script line at all if it is blank or a comment only (log entry 14), none if it is ill
formed. -/
def readLine (line : List Char) : Option (List ScriptLine) :=
  match wordsOf line with
  | [] => some []
  | time :: words =>
    match readTime time, readDirective words with
    | some t, some d => some [⟨t, d⟩]
    | _, _ => none

/-- The lines of a text, none if one of them is ill formed. -/
def readLines : List (List Char) → Option (List ScriptLine)
  | [] => some []
  | line :: rest =>
    match readLine line, readLines rest with
    | some x, some xs => some (x ++ xs)
    | _, _ => none

/-- The script a text stands for (R100). -/
def readScript (text : List Char) : Option (List ScriptLine) := readLines (pieces '\n' text)

/-- The digit of a value below 10. -/
def digitChar (d : Nat) : Char := Char.ofNat ('0'.toNat + d)

/-- Decimal digits of `n`, at most `fuel` of them. -/
def writeDigits : Nat → Nat → List Char
  | 0, _ => []
  | fuel + 1, n => if n < 10 then [digitChar n] else writeDigits fuel (n / 10) ++ [digitChar (n % 10)]

/-- A decimal number. -/
def writeNumber (n : Nat) : List Char := writeDigits (n + 1) n

/-- The spelling of a directive. -/
def writeDirective : Directive → List Char
  | .edgeRise .L => "EDGE_RISE_L".toList
  | .edgeRise .R => "EDGE_RISE_R".toList
  | .edgeFall .L => "EDGE_FALL_L".toList
  | .edgeFall .R => "EDGE_FALL_R".toList
  | .seq => "SEQ".toList
  | .seqMicro m => "SEQ:".toList ++ (mnemonicOf m).toList
  | .reset => "RESET".toList
  | .pulse .L w => "PULSE_L ".toList ++ writeNumber w
  | .pulse .R w => "PULSE_R ".toList ++ writeNumber w
  | .gateIter => "GATE_ITER".toList
  | .loopIter => "LOOP_ITER".toList

/-- The text of one line. -/
def writeLine (x : ScriptLine) : List Char := '@' :: (writeNumber x.t ++ ' ' :: writeDirective x.what)

/-- The text of a script, each line ended by a line break. -/
def writeScript : List ScriptLine → List Char
  | [] => []
  | x :: rest => writeLine x ++ '\n' :: writeScript rest

end Sys2Proof.Machine
end

