-- ==== Sys2Proof/Safety.lean ====
section
/-! DEFINITION. The terms the statements use: runs, frames, the invariants of the block, and the window in
which the gate is open. -/

namespace Sys2Proof.Machine

/-- `k` steps, stopping at the first refusal: the state reached after a finite prefix of stimuli (R239). -/
def runSteps : Nat → State → Host.Outcome State Fault Refusal
  | 0, s => .next s
  | k + 1, s =>
    match step s with
    | .next t => runSteps k t
    | .fault r => .fault r
    | .refused r => .refused r

/-! ### Frames: what two states have in common -/

/-- The parameters, the clock and the stimuli to come. -/
def SameEnv (s t : State) : Prop := t.cfg = s.cfg ∧ t.time = s.time ∧ t.stimuli = s.stimuli

/-- The registers of the capture agent of channel `c`. -/
def SameCapture (c : Channel) (s t : State) : Prop := t.ts c = s.ts c ∧ t.ref c = s.ref c ∧ t.condOf c = s.condOf c

/-- The gate's registers. -/
def SameGate (s t : State) : Prop := t.gateT0 = s.gateT0 ∧ t.streakT0 = s.streakT0 ∧ t.cause = s.cause

/-- The two enable lines. -/
def SameEnables (s t : State) : Prop := t.enL = s.enL ∧ t.enR = s.enR

/-- The two duty lines of motor `c`. -/
def SameMotor (c : Channel) (s t : State) : Prop := ∀ d, t.sel c d = s.sel c d

/-- The sequencer's copy of channel `c`. -/
def SameSnap (c : Channel) (s t : State) : Prop := t.snap c = s.snap c

/-- Every register that only `SEQ` writes (R233). -/
def SameSequencer (s t : State) : Prop :=
  t.seqPhase = s.seqPhase ∧ SameGate s t ∧ SameSnap .L s t ∧ SameSnap .R s t ∧ SameMotor .L s t ∧ SameMotor .R s t
    ∧ SameEnables s t ∧ t.diag = s.diag

/-- The registers of both capture agents. -/
def SameCaptures (s t : State) : Prop := SameCapture .L s t ∧ SameCapture .R s t

/-! ### Streams of stimuli -/

/-- The word of an edge event of channel `c` (R92). -/
def edgeWord (c : Channel) (w : BitVec 8) : Prop :=
  match c with
  | .L => w = 0x00#8 ∨ w = 0x01#8
  | .R => w = 0x02#8 ∨ w = 0x03#8

/-- None of the stimuli is a RESET or an edge event of channel `c`. -/
def QuietFor (c : Channel) (xs : List Stimulus) : Prop := ∀ x ∈ xs, x.word ≠ 0x80#8 ∧ ¬ edgeWord c x.word

/-- A stream of valid words without assertions, its times never decreasing from `T` on (R90, R97). -/
def PlainStream (T : Nat) (xs : List Stimulus) : Prop :=
  streamWf T xs = true ∧ ∀ x ∈ xs, x.expect = none ∧ ∃ i, decodeByte x.word = .ok i

/-! ### Infinite runs (60_exceptions.md R234, R239)

An infinite run is no state: it is a sequence of states, and its environment a sequence of stimuli, of which each step
is given one. Log entry 26. -/

/-- `s` with `x` as the one stimulus supplied to its next step. -/
def State.supply (s : State) (x : Stimulus) : State := { s with stimuli := [x] }

/-- `ρ` is the infinite run in which step `n` performs the stimulus `env n`. That each step answers a next state
says that the environment keeps its duties: valid words, and a T that never decreases (R235). -/
def IsRun (env : Nat → Stimulus) (ρ : Nat → State) : Prop := ∀ n, step ((ρ n).supply (env n)) = .next (ρ (n + 1))

/-- SEQ_STEP stimuli occur infinitely often (R234). -/
def SeqForever (env : Nat → Stimulus) : Prop := ∀ n, ∃ m, n ≤ m ∧ (env m).word = 0x40#8

/-- T grows without bound (R234). -/
def TimeUnbounded (env : Nat → Stimulus) : Prop := ∀ T, ∃ n, T ≤ (env n).t

/-- The fairness assumption of R234. Nothing in `step` or `IsRun` forces it: a claim takes it as a premise. -/
structure Fair (env : Nat → Stimulus) : Prop where
  seqForever : SeqForever env
  timeUnbounded : TimeUnbounded env

/-- No RESET in the environment. -/
def NoReset (env : Nat → Stimulus) : Prop := ∀ n, (env n).word ≠ 0x80#8

/-- Stimulus `m` is the environment's first SEQ_STEP. -/
def FirstSeq (env : Nat → Stimulus) (m : Nat) : Prop :=
  (env m).word = 0x40#8 ∧ ∀ n, n < m → (env n).word ≠ 0x40#8

/-- After stimulus `m`, with `S` its time, there are three SEQ_STEPs at times in `[S + GATE_TIMEOUT, S + 2^W)`, stimulus
`k` being the third of them (the bounds on the first and the third suffice, since T never decreases). It is a premise
on the environment alone: R147's proviso that T reaches `GATE_T0 + GATE_TIMEOUT` and `SEQ` keeps being given steps,
at times that R235's last duty allows to evaluations. -/
def SeqsPastTimeout (c : Config) (env : Nat → Stimulus) (m k : Nat) : Prop :=
  ∃ i j, m < i ∧ i < j ∧ j < k ∧
    (env i).word = 0x40#8 ∧ (env j).word = 0x40#8 ∧ (env k).word = 0x40#8 ∧
    (env m).t + c.gateTimeout ≤ (env i).t ∧ (env k).t < (env m).t + 2 ^ c.clkBits

/-- From each SEQ_STEP to the next at most `D` µs pass. -/
def SeqGapsWithin (D : Nat) (env : Nat → Stimulus) : Prop :=
  ∀ a b, a < b → (env a).word = 0x40#8 → (env b).word = 0x40#8 →
    (∀ n, a < n → n < b → (env n).word ≠ 0x40#8) → (env b).t ≤ (env a).t + D

/-- The gate has released: the sequencer is in the loop, both enables are 1 and `CAUSE` names the reason (R145). -/
def Released (s : State) : Prop :=
  4 ≤ s.seqPhase.toNat ∧ s.seqPhase.toNat ≤ 10 ∧ s.enL = true ∧ s.enR = true ∧
    (s.cause = causePattern ∨ s.cause = causeTimeout)

/-- The first `k` stimuli of an environment, as a stream. -/
def firstStimuli (env : Nat → Stimulus) : Nat → List Stimulus
  | 0 => []
  | k + 1 => firstStimuli env k ++ [env k]

/-- How many of the first `k` stimuli are SEQ_STEPs. -/
def seqCount (k : Nat) (xs : List Stimulus) : Nat := ((xs.take k).filter fun x => x.word == 0x40#8).length

/-! ### Invariants -/

/-- For each motor at least one of the two lines is 0 (43_mapper.md R185). -/
def LinesExclusive (s : State) : Prop := ∀ c, s.sel c .forward = 0 ∨ s.sel c .backward = 0

/-- Motor `c`'s lines hold the mapper's result for the snapshot of channel `c` (44_control_loop.md R204). -/
def MotorFollows (c : Channel) (s : State) : Prop :=
  s.sel c (dir s.cfg (s.snap c)) = duty s.cfg (s.snap c) ∧ s.otherLine c (dir s.cfg (s.snap c)) = 0

/-- What holds of the sequencer's registers in each phase. -/
structure DriveSafe (s : State) : Prop where
  /-- `SEQ_PHASE` is no reserved value (R40). -/
  phase_le : s.seqPhase.toNat ≤ 10
  /-- Before the release every output is 0 and `CAUSE` is `NONE` (R148, R43). -/
  closed : s.seqPhase.toNat < 4 →
    (∀ c d, s.sel c d = 0) ∧ s.enL = false ∧ s.enR = false ∧ s.cause = causeNone
  /-- After it both enables are 1 and `CAUSE` names the reason (R145, R51, R43). -/
  released : 4 ≤ s.seqPhase.toNat → s.enL = true ∧ s.enR = true ∧ (s.cause = causePattern ∨ s.cause = causeTimeout)
  /-- The two lines of a motor are never both driven (R185). -/
  exclusive : LinesExclusive s
  /-- Between MAP_ZERO_L and MAP_DRIVE_L the line not selected is 0 (R184). -/
  zeroedL : s.seqPhase = phDriveL → s.otherLine .L (dir s.cfg s.snapL) = 0
  /-- Between MAP_ZERO_R and MAP_DRIVE_R the line not selected is 0 (R184). -/
  zeroedR : s.seqPhase = phDriveR → s.otherLine .R (dir s.cfg s.snapR) = 0
  /-- After MAP_DRIVE_L motor L follows its snapshot to the iteration's end (R204). -/
  drivenL : 8 ≤ s.seqPhase.toNat → MotorFollows .L s
  /-- After MAP_DRIVE_R motor R follows its snapshot to the iteration's end (R204). -/
  drivenR : s.seqPhase = phLDiag → MotorFollows .R s

/-- The values of a diagnostic record fit W bits (R236). -/
def DiagRecord.inRange (bits : Nat) : DiagRecord → Prop
  | .gateStatus _ l r => l < 2 ^ bits ∧ r < 2 ^ bits
  | .loopReport l r => l < 2 ^ bits ∧ r < 2 ^ bits

/-- Every register holds a value of its width, in a block whose parameters fit (R12, R9, R50, R236). -/
structure RegistersInRange (s : State) : Prop where
  cfg_wf : s.cfg.wf = true
  ts : ∀ c, s.ts c < 2 ^ s.cfg.clkBits
  ref : ∀ c, s.ref c < 2 ^ s.cfg.clkBits
  condOf : ∀ c, s.condOf c < 2 ^ s.cfg.clkBits
  snap : ∀ c, s.snap c < 2 ^ s.cfg.clkBits
  gateT0 : s.gateT0 < 2 ^ s.cfg.clkBits
  streakT0 : s.streakT0 < 2 ^ s.cfg.clkBits
  /-- A duty register holds at most `DUTY_MAX`, which fits `DUTY_BITS` (R50, R183). -/
  line : ∀ c d, s.sel c d ≤ s.cfg.dutyMax
  diag : ∀ r ∈ s.diag, r.inRange s.cfg.clkBits

/-- The gate, started at the real time `S`, is open: `GATE_T0` samples `S`, and `STREAK_T0` samples a real
time between `S` and the present (41_gate.md R146: "`STREAK_T0` is never earlier than `GATE_T0`"). -/
structure GateOpen (S : Nat) (s : State) : Prop where
  phase : s.seqPhase = phGReadL ∨ s.seqPhase = phGReadR ∨ s.seqPhase = phGEval
  started : S ≤ s.time
  inWindow : s.time < S + 2 ^ s.cfg.clkBits
  gateT0 : s.gateT0 = wmod s.cfg.clkBits S
  streak : ∃ K, S ≤ K ∧ K ≤ s.time ∧ s.streakT0 = wmod s.cfg.clkBits K

end Sys2Proof.Machine
end

