-- ==== Sys2Proof/Certificates/Slice0/Obligations.lean ====
section
/-! DEFINITION. The statements for the provers. Each docstring names the rule it formalises; where the spec marks
a sentence as its own inference or the model chose, the docstring says so. `s.cfg` is any configuration unless
a hypothesis fixes it, and `wmod W T` is the clock sample `T mod 2^W`. -/

open Sys2Proof Sys2Proof.Machine

/-! ### Encoding and decoding -/

/-- 30_encoding.md R97: the decoder is total on every byte; six words are valid. -/
def Obligations.DecodeByteAnswersExactlySixWords : Prop :=
  ∀ w : BitVec 8, decodeByte w =
    if w.extractLsb' 2 6 = 0#6 then
      .ok (if w.getLsbD 1 then (if w.getLsbD 0 then .edgeRiseR else .edgeFallR)
        else if w.getLsbD 0 then .edgeRiseL else .edgeFallL)
    else if w = 0x40#8 then .ok .seqStep
    else if w = 0x80#8 then .ok .reset
    else .error .reservedWord

/-- 30_encoding.md R95: the phase code selects the micro-operation of its row; 11 to 15 select none. -/
def Obligations.PhaseCodeSelectsMicroOperation : Prop :=
  (∀ p : BitVec 4, ∀ h : p.toNat < 11, decodePhase p = .ok
    ([.gateStart, .gateReadL, .gateReadR, .gateEval, .loopReadL, .loopReadR, .mapZeroL, .mapDriveL, .mapZeroR,
      .mapDriveR, .loopDiag][p.toNat]'h)) ∧
  ∀ p : BitVec 4, 11 ≤ p.toNat → decodePhase p = .error .reservedPhase

/-- Decoding inverts encoding, and each operation has one code only (30_encoding.md section 7). -/
def Obligations.DecodeInvertsEncode : Prop :=
  (∀ i, decode (encode i) = .ok i) ∧ ∀ c i, decode c = .ok i → c = encode i

/-- A few codes written out from the tables of 30_encoding.md (sections 1 and 2). -/
def Obligations.SampleCodesDecode : Prop :=
  decode (.stimulus 0b00000001#8) = .ok .edgeRiseL ∧ decode (.stimulus 0b00000010#8) = .ok .edgeFallR ∧
  decode (.stimulus 0b01000000#8) = .ok .seqStep ∧ decode (.stimulus 0b10000000#8) = .ok .reset ∧
  decode (.phase 0b0011#4) = .ok .gateEval ∧ decode (.phase 0b0101#4) = .ok .loopReadR ∧
  decode (.phase 0b0111#4) = .ok .mapDriveL

/-- Every well-formed script is read back from its text: each time, width and micro-operation at every value
(30_encoding.md section 6; the handling of blanks is the model's choice, log entry 14). -/
def Obligations.WrittenScriptReadsBack : Prop :=
  ∀ xs : List ScriptLine, (∀ x ∈ xs, x.what.wf = true) → readScript (writeScript xs) = some xs

/-- Ordering a stream by time keeps every stimulus of each single time in script order and yields times that
never decrease (30_encoding.md section 6, R100 and R101 in part). -/
def Obligations.ScriptOrderIsStable : Prop :=
  ∀ xs : List Stimulus, timesFrom 0 (sortByTime xs) = true ∧
    ∀ t, (sortByTime xs).filter (fun x => x.t == t) = xs.filter (fun x => x.t == t)

/-- 30_encoding.md R101: what each pseudo-operation expands to, and that the expanded lines of a well-formed script
are brought into a stable order by time. -/
def Obligations.PseudoOperationsExpandInTimeOrder : Prop :=
  (∀ t w, expandLine ⟨t, .pulse .L w⟩ = [⟨0x01#8, t, none⟩, ⟨0x00#8, t + w, none⟩]) ∧
  (∀ t w, expandLine ⟨t, .pulse .R w⟩ = [⟨0x03#8, t, none⟩, ⟨0x02#8, t + w, none⟩]) ∧
  (∀ t, expandLine ⟨t, .gateIter⟩ =
    [⟨0x40#8, t, some .gateReadL⟩, ⟨0x40#8, t, some .gateReadR⟩, ⟨0x40#8, t, some .gateEval⟩]) ∧
  (∀ t, expandLine ⟨t, .loopIter⟩ =
    [⟨0x40#8, t, some .loopReadL⟩, ⟨0x40#8, t, some .loopReadR⟩, ⟨0x40#8, t, some .mapZeroL⟩,
      ⟨0x40#8, t, some .mapDriveL⟩, ⟨0x40#8, t, some .mapZeroR⟩, ⟨0x40#8, t, some .mapDriveR⟩,
      ⟨0x40#8, t, some .loopDiag⟩]) ∧
  ∀ xs : List ScriptLine, scriptWf xs = true → ∃ ys, scriptStimuli xs = some ys ∧ timesFrom 0 ys = true ∧
    ∀ t, ys.filter (fun x => x.t == t) = (xs.flatMap expandLine).filter (fun x => x.t == t)

/-! ### The step -/

/-- A step runs the decoded operation: the next stimulus, its time not past, its word valid and its assertion
(if any) met, is performed by `exec` at its own time, with the rest of the stream to come. -/
def Obligations.StepRunsDecodedOperation : Prop :=
  ∀ (s : State) (x : Stimulus) (rest : List Stimulus) (i : Instr),
    s.stimuli = x :: rest → s.time ≤ x.t → decodeByte x.word = .ok i →
    (∀ m, x.expect = some m → decodePhase s.seqPhase = .ok m) →
    step s = exec i { s with time := x.t, stimuli := rest }

/-- 30_encoding.md R98: reserved bytes and reserved phases are refused by name, and no operation reaches a
reserved phase. -/
def Obligations.ReservedEncodingsRefused : Prop :=
  (∀ (s : State) (x : Stimulus) (rest : List Stimulus), s.stimuli = x :: rest → s.time ≤ x.t →
    (x.word.extractLsb' 6 2 = 0b11#2 ∨
      (x.word.extractLsb' 6 2 = 0b00#2 ∧ x.word.extractLsb' 2 4 ≠ 0#4) ∨
      (x.word.extractLsb' 6 2 = 0b01#2 ∧ x.word.extractLsb' 0 6 ≠ 0#6) ∨
      (x.word.extractLsb' 6 2 = 0b10#2 ∧ x.word.extractLsb' 0 6 ≠ 0#6)) →
    step s = .refused .reservedWord) ∧
  (∀ s : State, 11 ≤ s.seqPhase.toNat → exec .seqStep s = .refused .reservedPhase) ∧
  ∀ (i : Instr) (s t : State), s.seqPhase.toNat ≤ 10 → exec i s = .next t → t.seqPhase.toNat ≤ 10

/-- A SEQ stimulus whose script assertion names another micro-operation than the one selected is refused
(30_encoding.md section 6; that the word is judged before the assertion is the model's choice, log entry 7). -/
def Obligations.FailedScriptAssertionRefused : Prop :=
  ∀ (s : State) (x : Stimulus) (rest : List Stimulus) (m : Instr), s.stimuli = x :: rest → s.time ≤ x.t →
    x.word = 0x40#8 → x.expect = some m → decodePhase s.seqPhase ≠ .ok m →
    step s = .refused .scriptAssertion

/-- The model's own choices about what is not the block's: with no stimulus left the state stays (log entry 4), a
stimulus of a past time is refused (log entry 5), and RESET keeps the parameters, the time and the stimuli still to
come (log entry 6). -/
def Obligations.StreamConventions : Prop :=
  (∀ s : State, s.stimuli = [] → step s = .next s) ∧
  (∀ (s : State) (x : Stimulus) (rest : List Stimulus), s.stimuli = x :: rest → x.t < s.time →
    step s = .refused .timeReversed) ∧
  ∀ s : State, ∃ t, exec .reset s = .next t ∧ SameEnv s t

/-- 41_gate.md R140 with 30_encoding.md R95: a SEQ_STEP performs exactly the micro-operation that `SEQ_PHASE`
selects, and completes in every phase from 0 to 10; a reserved phase is refused. -/
def Obligations.SeqStepPerformsSelectedMicroOperation : Prop :=
  decodeByte 0x40#8 = .ok .seqStep ∧
  (∀ (s : State) (i : Instr), decodePhase s.seqPhase = .ok i →
    exec .seqStep s = exec i s ∧ ∃ t, exec .seqStep s = .next t) ∧
  ∀ s : State, 11 ≤ s.seqPhase.toNat → exec .seqStep s = .refused .reservedPhase

/-- T never decreases along a run and the parameters are fixed for the block's lifetime (from 00_scope.md section 5 and
10_state.md section 7), and a step performs one stimulus of the stream (from 30_encoding.md section 1, R90). That
the stream is a list in the state, empty in `State.reset`, that an empty one stays empty, and that a T that goes
back is refused are the model's choices (log entries 3, 4 and 5). -/
def Obligations.TimeNeverDecreasesAndParametersStay : Prop :=
  ∀ s t : State, step s = .next t → s.time ≤ t.time ∧ t.cfg = s.cfg ∧ t.stimuli = s.stimuli.tail

/-- The next-phase table of 10_state.md section 3: every SEQ_STEP moves `SEQ_PHASE` to the next row, so no
phase's next phase is itself. -/
def Obligations.SeqStepFollowsPhaseTable : Prop :=
  ∀ s t : State, exec .seqStep s = .next t →
    t.seqPhase ≠ s.seqPhase ∧
    (s.seqPhase ≠ 3#4 → s.seqPhase ≠ 10#4 → t.seqPhase = s.seqPhase + 1#4) ∧
    (s.seqPhase = 3#4 → t.seqPhase = 1#4 ∨ t.seqPhase = 4#4) ∧
    (s.seqPhase = 10#4 → t.seqPhase = 4#4)

/-- In a run of valid words without assertions whose times do not decrease, the block never halts and never
refuses, from any state whose phase is not reserved (from 60_exceptions.md sections 1 and 9; that a run past
the end of the stream stays put is the model's choice, log entry 4). -/
def Obligations.PlainStreamNeverStops : Prop :=
  ∀ (s : State), s.seqPhase.toNat ≤ 10 → PlainStream s.time s.stimuli →
    ∀ k, ∃ t, runSteps k s = .next t ∧ t.seqPhase.toNat ≤ 10

/-! ### Capture -/

/-- 40_capture.md R123: `TS_L` takes the timestamp and nothing else changes. -/
def Obligations.EdgeRiseLLatchesTimestamp : Prop :=
  decodeByte 0x01#8 = .ok .edgeRiseL ∧
  ∀ s : State, ∃ t, exec .edgeRiseL s = .next t ∧
    t.tsL = s.time % 2 ^ s.cfg.clkBits ∧ t.refL = s.refL ∧ t.condL = s.condL ∧
    SameCapture .R s t ∧ SameSequencer s t ∧ SameEnv s t

/-- 40_capture.md R124: `REF_L` takes the time since the latched rise modulo `2^W`, and `COND_L` its conditioned
value; nothing else changes. With `TS_L` = 0 the reading is the raw sample. -/
def Obligations.EdgeFallLMeasuresHighTime : Prop :=
  decodeByte 0x00#8 = .ok .edgeFallL ∧
  ∀ s : State, ∃ t, exec .edgeFallL s = .next t ∧
    (t.refL : Int) = ((s.time : Int) - s.tsL) % 2 ^ s.cfg.clkBits ∧
    (s.tsL = 0 → t.refL = s.time % 2 ^ s.cfg.clkBits) ∧
    t.condL = cond s.cfg t.refL ∧ t.tsL = s.tsL ∧
    SameCapture .R s t ∧ SameSequencer s t ∧ SameEnv s t

/-- 40_capture.md R126: `TS_R` takes the timestamp, and since `measured` is then 0, `REF_R` takes `CORR` and
`COND_R` takes `Cond(CORR)`. (`CORR` of a W-bit register is taken modulo `2^W`; in a well-formed configuration
it fits.) With the default parameters `COND_R` becomes 1500. -/
def Obligations.EdgeRiseRReadsCorrection : Prop :=
  decodeByte 0x03#8 = .ok .edgeRiseR ∧
  ∀ s : State, ∃ t, exec .edgeRiseR s = .next t ∧
    t.tsR = s.time % 2 ^ s.cfg.clkBits ∧
    t.refR = s.cfg.corr % 2 ^ s.cfg.clkBits ∧ (s.cfg.wf = true → t.refR = s.cfg.corr) ∧
    t.condR = cond s.cfg t.refR ∧ (s.cfg = Config.default → t.refR = 3000 ∧ t.condR = 1500) ∧
    SameCapture .L s t ∧ SameSequencer s t ∧ SameEnv s t

/-- 40_capture.md R127: `REF_R` takes `CORR` less the time since the latched rise, modulo `2^W`, and `COND_R` its
conditioned value; `TS_R` and everything else keep their values. -/
def Obligations.EdgeFallRReadsInverted : Prop :=
  decodeByte 0x02#8 = .ok .edgeFallR ∧
  ∀ s : State, ∃ t, exec .edgeFallR s = .next t ∧
    (t.refR : Int) = ((s.cfg.corr : Int) - ((s.time : Int) - s.tsR) % 2 ^ s.cfg.clkBits) % 2 ^ s.cfg.clkBits ∧
    t.condR = cond s.cfg t.refR ∧ t.tsR = s.tsR ∧
    (s.cfg = Config.default →
      (3000 < ((s.time : Int) - s.tsR) % 2 ^ 32 →
        (t.refR : Int) = 2 ^ 32 - (((s.time : Int) - s.tsR) % 2 ^ 32 - 3000) ∧ t.condR = 1500) ∧
      (((s.time : Int) - s.tsR) % 2 ^ 32 ≤ 3000 → (t.refR : Int) = 3000 - ((s.time : Int) - s.tsR) % 2 ^ 32)) ∧
    SameCapture .L s t ∧ SameSequencer s t ∧ SameEnv s t

/-- 40_capture.md R133: a capture step of channel c writes nothing outside its channel's registers, and reads
nothing outside them: what it writes depends only on `TS_c`, the timestamp and the parameters (and on the
values it leaves as they are). -/
def Obligations.CaptureStepsStayInTheirChannel : Prop :=
  (∀ (i : Instr) (s t : State), i = .edgeRiseL ∨ i = .edgeFallL → exec i s = .next t →
    SameCapture .R s t ∧ SameSequencer s t ∧ SameEnv s t) ∧
  (∀ (i : Instr) (s t : State), i = .edgeRiseR ∨ i = .edgeFallR → exec i s = .next t →
    SameCapture .L s t ∧ SameSequencer s t ∧ SameEnv s t) ∧
  (∀ (i : Instr) (s s' t t' : State), i = .edgeRiseL ∨ i = .edgeFallL → s'.cfg = s.cfg → s'.time = s.time →
    SameCapture .L s s' → exec i s = .next t → exec i s' = .next t' → SameCapture .L t t') ∧
  ∀ (i : Instr) (s s' t t' : State), i = .edgeRiseR ∨ i = .edgeFallR → s'.cfg = s.cfg → s'.time = s.time →
    SameCapture .R s s' → exec i s = .next t → exec i s' = .next t' → SameCapture .R t t'

/-- Edge events of different channels at one time may be performed in either order with the same result
(the spec's own inference, 60_exceptions.md section 3: "any nesting gives the same result as performing the
two steps one after the other"). -/
def Obligations.CapturesOfDifferentChannelsCommute : Prop :=
  ∀ (i j : Instr) (s : State), i = .edgeRiseL ∨ i = .edgeFallL → j = .edgeRiseR ∨ j = .edgeFallR →
    ∃ a b t, exec i s = .next a ∧ exec j a = .next t ∧ exec j s = .next b ∧ exec i b = .next t

/-- The spec's own inference in 40_capture.md section 4 (R129): after a left rise at `x.t` and the next left fall
at `y.t`, less than `2^W` µs later, `REF_L` is the physical high time and `COND_L` its conditioned value,
whatever the sequencer and channel R do in between. -/
def Obligations.LeftPulseWidthIsHighTime : Prop :=
  ∀ (s t : State) (x y : Stimulus) (mid rest : List Stimulus),
    s.stimuli = x :: (mid ++ y :: rest) → x.word = 0x01#8 → y.word = 0x00#8 → QuietFor .L mid →
    y.t - x.t < 2 ^ s.cfg.clkBits → runSteps (mid.length + 2) s = .next t →
    t.refL = y.t - x.t ∧ t.condL = cond s.cfg (y.t - x.t)

/-- The spec's own inference in 40_capture.md section 4 (R132): after a right rise at `x.t` and the next right fall
at `y.t`, with width `w < 2^W`, `REF_R = (CORR - w) mod 2^W`; and with the default parameters `COND_R` is as the
table of that rule says. -/
def Obligations.RightPulseReadingByWidth : Prop :=
  ∀ (s t : State) (x y : Stimulus) (mid rest : List Stimulus) (w : Nat),
    s.stimuli = x :: (mid ++ y :: rest) → x.word = 0x03#8 → y.word = 0x02#8 → QuietFor .R mid →
    y.t = x.t + w → w < 2 ^ s.cfg.clkBits → runSteps (mid.length + 2) s = .next t →
    (t.refR : Int) = ((s.cfg.corr : Int) - w) % 2 ^ s.cfg.clkBits ∧
    (s.cfg = Config.default →
      t.condR = if 1000 < w ∧ w < 1225 then 2000
        else if 1850 < w ∧ w < 2000 then 1000
        else if 1450 < w ∧ w < 1550 then 1500
        else if w < 1000 ∨ 2000 < w then 1500
        else 3000 - w)

/-- The spec's own inference in 40_capture.md section 4 (R131): with the default parameters `COND_R` is 1500 from a
right rise until the next right event, whatever else happens. -/
def Obligations.RightChannelNeutralWhileHigh : Prop :=
  ∀ (s t : State) (x : Stimulus) (mid rest : List Stimulus),
    s.cfg = Config.default → s.stimuli = x :: (mid ++ rest) → x.word = 0x03#8 → QuietFor .R mid →
    runSteps (mid.length + 1) s = .next t → t.condR = 1500

/-- The spec's own inference in 40_capture.md section 4 (R130): the difference of two clock samples is the true
elapsed time modulo `2^W`, so the true time itself when that is below `2^W`, across a wrap too. -/
def Obligations.SampleDifferenceIsElapsedTime : Prop :=
  ∀ (W a b : Nat), a ≤ b →
    wsub W (b % 2 ^ W) (a % 2 ^ W) = (b - a) % 2 ^ W ∧
    (b - a < 2 ^ W → wsub W (b % 2 ^ W) (a % 2 ^ W) = b - a)

/-! ### Conditioner -/

/-- The four range rules of 42_conditioner.md section 1 in order, then pass-through, for every configuration and every
value. That `NEUTRAL - DB` and `NEUTRAL + DB` are read in the integers, with no wrap, is the model's reading (log
entry 9, DEDUCED): it matters for a `DB` above `NEUTRAL` or a sum of `2^W` or more. -/
def Obligations.CondTakesFirstMatchingRule : Prop :=
  ∀ (c : Config) (v : Nat),
    let r1 : Prop := (c.neutral : Int) - c.db < v ∧ (v : Int) < c.neutral + c.db
    let r2 : Prop := c.deadHigh < v ∧ v < c.absMax
    let r3 : Prop := c.absMin < v ∧ v < c.deadLow
    let r4 : Prop := v < c.absMin ∨ v > c.absMax
    (r1 → cond c v = c.neutral) ∧
    (¬ r1 → r2 → cond c v = c.absMax) ∧
    (¬ r1 → ¬ r2 → r3 → cond c v = c.absMin) ∧
    (¬ r1 → ¬ r2 → ¬ r3 → r4 → cond c v = c.neutral) ∧
    (¬ r1 → ¬ r2 → ¬ r3 → ¬ r4 → cond c v = v)

/-- The spec's own inferences in 42_conditioner.md section 2 (R166 to R168), with the default parameters: which
values it leaves as they are (the pass-through values, and 1500 by rule 1), which values can result, and that
conditioning twice changes nothing. -/
def Obligations.CondDefaultValues : Prop :=
  ∀ v : Nat,
    (cond Config.default v = v ↔
      v = 1000 ∨ (1150 ≤ v ∧ v ≤ 1450) ∨ v = 1500 ∨ (1550 ≤ v ∧ v ≤ 1775) ∨ v = 2000) ∧
    (∀ r, r = cond Config.default v →
      r = 1000 ∨ (1150 ≤ r ∧ r ≤ 1450) ∨ r = 1500 ∨ (1550 ≤ r ∧ r ≤ 1775) ∨ r = 2000) ∧
    cond Config.default (cond Config.default v) = cond Config.default v

/-- The spec's own inference (10_state.md R34 with 42_conditioner.md R167): with the default parameters, in every
run from power-on each conditioned value is 0, its reset value, or lies in the set of R167. -/
def Obligations.ConditionedValuesStayInSet : Prop :=
  ∀ (T : Nat) (xs : List Stimulus) (k : Nat) (t : State) (c : Channel),
    runSteps k (State.initial Config.default T xs) = .next t →
    ∀ r, r = t.condOf c →
    r = 0 ∨ r = 1000 ∨ (1150 ≤ r ∧ r ≤ 1450) ∨ r = 1500 ∨ (1550 ≤ r ∧ r ≤ 1775) ∨ r = 2000

/-! ### Mapper -/

/-- 43_mapper.md R180: FORWARD, encoded 1, if `v > NEUTRAL`, and BACKWARD, encoded 0, otherwise. -/
def Obligations.DirectionFollowsNeutral : Prop :=
  ∀ (c : Config) (v : Nat),
    (v > c.neutral → dir c v = .forward ∧ (dir c v).code = 1#1) ∧
    (v ≤ c.neutral → dir c v = .backward ∧ (dir c v).code = 0#1) ∧
    dir c 0 = .backward ∧ dir Config.default 1501 = .forward ∧ dir Config.default 1500 = .backward

/-- 43_mapper.md R181 and R182: the magnitude in exact integers, for every value and every configuration; and the
duty, 0 at neutral, else the floor of `Mag(v) * DUTY_MAX / SPAN` limited to `DUTY_MAX`. `a div b` has a meaning for
non-negative integers only (00_scope.md R15): where the product is negative or `SPAN` is 0 the spec states no
quotient (the free value of log entry 8), and only the bound of `DutyNeverExceedsFullScale` holds. -/
def Obligations.DutyIsFloorOfScaledMagnitude : Prop :=
  ∀ (c : Config) (v : Nat),
    (v = c.neutral → mag c v = 0) ∧
    (v > c.neutral → mag c v = (v : Int) - c.neutral) ∧
    (v < c.neutral → mag c v = ((c.corr : Int) - v) - c.neutral) ∧
    (v = c.neutral → duty c v = 0) ∧
    (v ≠ c.neutral → 0 ≤ mag c v → 0 < c.span →
      (duty c v : Int) = min (c.dutyMax : Int) (mag c v * c.dutyMax / c.span))

/-- The spec's own inference (43_mapper.md R183): the duty lies in `[0, DUTY_MAX]` for every value and every
configuration, the free values of log entry 8 among them; with the default parameters it fits 8 bits. -/
def Obligations.DutyNeverExceedsFullScale : Prop :=
  (∀ (c : Config) (v : Nat), duty c v ≤ c.dutyMax) ∧ ∀ v : Nat, duty Config.default v < 2 ^ 8

/-- The spec's own inferences in 43_mapper.md section 3 (R190, R191), with the default parameters. -/
def Obligations.DutyIsSymmetricAboutNeutral : Prop :=
  (∀ k, k ≤ 500 → duty Config.default (1500 - k) = duty Config.default (1500 + k)) ∧
  (∀ v, v < 1500 → mag Config.default v = 1500 - (v : Int)) ∧
  (∀ v, 1500 < v → v ≤ 2000 → dir Config.default v = .forward) ∧
  (∀ v, 1000 ≤ v → v ≤ 1500 → dir Config.default v = .backward) ∧
  duty Config.default 1500 = 0 ∧ duty Config.default 2000 = 255 ∧ duty Config.default 1000 = 255

/-- 43_mapper.md R186 and R188: MAP_ZERO_c sets motor c's line of the direction not selected to 0 and moves to the
next phase; the selected line, the other motor and everything else keep their values. Line A is the FORWARD line
(R184, the spec's decision D13). -/
def Obligations.MapZeroTurnsOffOtherLine : Prop :=
  decodePhase 6#4 = .ok .mapZeroL ∧ decodePhase 8#4 = .ok .mapZeroR ∧
  (∀ s : State, ∃ t, exec .mapZeroL s = .next t ∧ t.seqPhase = 7#4 ∧
    (s.snapL > s.cfg.neutral → t.pwmLB = 0 ∧ t.pwmLA = s.pwmLA) ∧
    (s.snapL ≤ s.cfg.neutral → t.pwmLA = 0 ∧ t.pwmLB = s.pwmLB) ∧
    SameMotor .R s t ∧ SameGate s t ∧ SameSnap .L s t ∧ SameSnap .R s t ∧ SameEnables s t ∧ t.diag = s.diag ∧
    SameCaptures s t ∧ SameEnv s t) ∧
  ∀ s : State, ∃ t, exec .mapZeroR s = .next t ∧ t.seqPhase = 9#4 ∧
    (s.snapR > s.cfg.neutral → t.pwmRB = 0 ∧ t.pwmRA = s.pwmRA) ∧
    (s.snapR ≤ s.cfg.neutral → t.pwmRA = 0 ∧ t.pwmRB = s.pwmRB) ∧
    SameMotor .L s t ∧ SameGate s t ∧ SameSnap .L s t ∧ SameSnap .R s t ∧ SameEnables s t ∧ t.diag = s.diag ∧
    SameCaptures s t ∧ SameEnv s t

/-- 43_mapper.md R187 and R189: MAP_DRIVE_c writes `Duty(SNAP_c)` to motor c's selected line and moves to the next
phase; everything else keeps its value. With the default parameters a snapshot of 1500 writes 0 and a snapshot
of 0 writes 255, both to line B. -/
def Obligations.MapDriveWritesDutyToSelectedLine : Prop :=
  decodePhase 7#4 = .ok .mapDriveL ∧ decodePhase 9#4 = .ok .mapDriveR ∧
  (∀ s : State, ∃ t, exec .mapDriveL s = .next t ∧ t.seqPhase = 8#4 ∧
    (s.snapL > s.cfg.neutral → t.pwmLA = duty s.cfg s.snapL ∧ t.pwmLB = s.pwmLB) ∧
    (s.snapL ≤ s.cfg.neutral → t.pwmLB = duty s.cfg s.snapL ∧ t.pwmLA = s.pwmLA) ∧
    (s.cfg = Config.default → (s.snapL = 1500 → t.pwmLB = 0) ∧ (s.snapL = 0 → t.pwmLB = 255)) ∧
    SameMotor .R s t ∧ SameGate s t ∧ SameSnap .L s t ∧ SameSnap .R s t ∧ SameEnables s t ∧ t.diag = s.diag ∧
    SameCaptures s t ∧ SameEnv s t) ∧
  ∀ s : State, ∃ t, exec .mapDriveR s = .next t ∧ t.seqPhase = 10#4 ∧
    (s.snapR > s.cfg.neutral → t.pwmRA = duty s.cfg s.snapR ∧ t.pwmRB = s.pwmRB) ∧
    (s.snapR ≤ s.cfg.neutral → t.pwmRB = duty s.cfg s.snapR ∧ t.pwmRA = s.pwmRA) ∧
    (s.cfg = Config.default → (s.snapR = 1500 → t.pwmRB = 0) ∧ (s.snapR = 0 → t.pwmRB = 255)) ∧
    SameMotor .L s t ∧ SameGate s t ∧ SameSnap .L s t ∧ SameSnap .R s t ∧ SameEnables s t ∧ t.diag = s.diag ∧
    SameCaptures s t ∧ SameEnv s t

/-! ### The startup gate -/

/-- 41_gate.md R141: both origins take the clock sample, the phase becomes 1, nothing else changes. -/
def Obligations.GateStartLatchesBothOrigins : Prop :=
  decodePhase 0#4 = .ok .gateStart ∧
  ∀ s : State, ∃ t, exec .gateStart s = .next t ∧
    t.gateT0 = s.time % 2 ^ s.cfg.clkBits ∧ t.streakT0 = s.time % 2 ^ s.cfg.clkBits ∧ t.seqPhase = 1#4 ∧
    t.cause = s.cause ∧ SameSnap .L s t ∧ SameSnap .R s t ∧ SameMotor .L s t ∧ SameMotor .R s t ∧ SameEnables s t ∧
    t.diag = s.diag ∧ SameCaptures s t ∧ SameEnv s t

/-- 41_gate.md R142 and R143: GATE_READ_c copies `COND_c` to `SNAP_c` and moves on; nothing else changes. -/
def Obligations.GateReadsCopyConditionedValue : Prop :=
  decodePhase 1#4 = .ok .gateReadL ∧ decodePhase 2#4 = .ok .gateReadR ∧
  (∀ s : State, ∃ t, exec .gateReadL s = .next t ∧ t.snapL = s.condL ∧ t.seqPhase = 2#4 ∧
    SameSnap .R s t ∧ SameGate s t ∧ SameMotor .L s t ∧ SameMotor .R s t ∧ SameEnables s t ∧ t.diag = s.diag ∧
    SameCaptures s t ∧ SameEnv s t) ∧
  ∀ s : State, ∃ t, exec .gateReadR s = .next t ∧ t.snapR = s.condR ∧ t.seqPhase = 3#4 ∧
    SameSnap .L s t ∧ SameGate s t ∧ SameMotor .L s t ∧ SameMotor .R s t ∧ SameEnables s t ∧ t.diag = s.diag ∧
    SameCaptures s t ∧ SameEnv s t

/-- 41_gate.md R144 with R145: GATE_EVAL emits one status record, moves the streak origin when the pattern is
false, and releases (both enables, the cause, phase 4) or returns to phase 1. The elapsed times are the
differences of samples modulo `2^W`; the pattern is checked before the timeout. -/
def Obligations.GateEvalDecidesRelease : Prop :=
  decodePhase 3#4 = .ok .gateEval ∧
  ∀ s : State,
    let pat : Prop := s.snapL < s.cfg.gateLLt ∧ s.snapR > s.cfg.gateRGt
    let streakDone : Prop := (s.cfg.gateWindow : Int) ≤ ((s.time : Int) - s.streakT0) % 2 ^ s.cfg.clkBits
    let timedOut : Prop := (s.cfg.gateTimeout : Int) ≤ ((s.time : Int) - s.gateT0) % 2 ^ s.cfg.clkBits
    ∃ t, exec .gateEval s = .next t ∧
      (pat → t.diag = s.diag ++ [.gateStatus .INIT s.snapL s.snapR] ∧ t.streakT0 = s.streakT0) ∧
      (¬ pat → t.diag = s.diag ++ [.gateStatus .ERROR s.snapL s.snapR] ∧
        t.streakT0 = s.time % 2 ^ s.cfg.clkBits) ∧
      (pat ∧ streakDone → t.cause = 1#2 ∧ t.enL = true ∧ t.enR = true ∧ t.seqPhase = 4#4) ∧
      (¬ (pat ∧ streakDone) ∧ timedOut → t.cause = 2#2 ∧ t.enL = true ∧ t.enR = true ∧ t.seqPhase = 4#4) ∧
      (¬ (pat ∧ streakDone) ∧ ¬ timedOut → t.cause = s.cause ∧ SameEnables s t ∧ t.seqPhase = 1#4) ∧
      t.gateT0 = s.gateT0 ∧ SameSnap .L s t ∧ SameSnap .R s t ∧ SameMotor .L s t ∧ SameMotor .R s t ∧
      SameCaptures s t ∧ SameEnv s t

/-- GATE_START opens the gate at its own time T, whatever the state before (41_gate.md section 2; `GateOpen` is
the model's word for "started at T and not yet released"). -/
def Obligations.GateStartOpensGate : Prop :=
  ∀ s : State, ∃ t, exec .gateStart s = .next t ∧ GateOpen s.time t

/-- The spec's own inference in 41_gate.md section 3 (R146): while the gate is open, with `GATE_WINDOW ≥ GATE_TIMEOUT`
and real elapsed times below `2^W`, a step other than RESET keeps it open, except a GATE_EVAL at a real time of
`GATE_TIMEOUT` or more after the start, which releases it. So the gate releases at exactly the first such
evaluation, and the pattern decides only `CAUSE`. -/
def Obligations.GateReleasesExactlyAtTimeout : Prop :=
  ∀ (S : Nat) (s t : State) (x : Stimulus) (rest : List Stimulus),
    GateOpen S s → s.cfg.gateTimeout ≤ s.cfg.gateWindow → s.stimuli = x :: rest → x.word ≠ 0x80#8 →
    x.t < S + 2 ^ s.cfg.clkBits → step s = .next t →
    (x.word = 0x40#8 ∧ s.seqPhase = phGEval ∧ S + s.cfg.gateTimeout ≤ x.t →
      t.seqPhase = phLReadL ∧ t.enL = true ∧ t.enR = true ∧ (t.cause = causePattern ∨ t.cause = causeTimeout)) ∧
    (¬ (x.word = 0x40#8 ∧ s.seqPhase = phGEval ∧ S + s.cfg.gateTimeout ≤ x.t) →
      GateOpen S t ∧ SameEnables s t ∧ t.cause = s.cause)

/-- The spec's own inference in 41_gate.md section 3 (R147), for a finite stream that meets its provisos: once time
has passed `S + GATE_TIMEOUT`, a stream of valid words with no RESET that gives the sequencer three steps
releases the gate, for any parameters. -/
def Obligations.GateAlwaysReleases : Prop :=
  ∀ (S : Nat) (s : State),
    GateOpen S s → PlainStream s.time s.stimuli → (∀ x ∈ s.stimuli, x.word ≠ 0x80#8) →
    (∀ x ∈ s.stimuli, S + s.cfg.gateTimeout ≤ x.t ∧ x.t < S + 2 ^ s.cfg.clkBits) →
    3 ≤ (s.stimuli.filter fun x => x.word == 0x40#8).length →
    ∃ t, runSteps s.stimuli.length s = .next t ∧ 4 ≤ t.seqPhase.toNat ∧ t.enL = true ∧ t.enR = true

/-- The release is permanent (41_gate.md sections 2 and 3): in the loop's phases no stimulus but RESET changes an
enable line or `CAUSE` or leads back to the gate's phases, whatever the inputs do. -/
def Obligations.ReleaseIsPermanent : Prop :=
  ∀ (s t : State), 4 ≤ s.seqPhase.toNat → s.seqPhase.toNat ≤ 10 → step s = .next t →
    (∀ x rest, s.stimuli = x :: rest → x.word ≠ 0x80#8) →
    SameEnables s t ∧ t.cause = s.cause ∧ 4 ≤ t.seqPhase.toNat ∧ t.seqPhase.toNat ≤ 10

/-! ### The control loop -/

/-- 44_control_loop.md R201 and R202: LOOP_READ_c copies `COND_c` to `SNAP_c` and moves on; nothing else changes. -/
def Obligations.LoopReadsCopyConditionedValue : Prop :=
  decodePhase 4#4 = .ok .loopReadL ∧ decodePhase 5#4 = .ok .loopReadR ∧
  (∀ s : State, ∃ t, exec .loopReadL s = .next t ∧ t.snapL = s.condL ∧ t.seqPhase = 5#4 ∧
    SameSnap .R s t ∧ SameGate s t ∧ SameMotor .L s t ∧ SameMotor .R s t ∧ SameEnables s t ∧ t.diag = s.diag ∧
    SameCaptures s t ∧ SameEnv s t) ∧
  ∀ s : State, ∃ t, exec .loopReadR s = .next t ∧ t.snapR = s.condR ∧ t.seqPhase = 6#4 ∧
    SameSnap .L s t ∧ SameGate s t ∧ SameMotor .L s t ∧ SameMotor .R s t ∧ SameEnables s t ∧ t.diag = s.diag ∧
    SameCaptures s t ∧ SameEnv s t

/-- 44_control_loop.md R203: LOOP_DIAG appends one report of the two snapshots and returns to phase 4. -/
def Obligations.LoopDiagReportsSnapshots : Prop :=
  decodePhase 10#4 = .ok .loopDiag ∧
  ∀ s : State, ∃ t, exec .loopDiag s = .next t ∧
    t.diag = s.diag ++ [.loopReport s.snapL s.snapR] ∧ t.seqPhase = 4#4 ∧
    SameSnap .L s t ∧ SameSnap .R s t ∧ SameGate s t ∧ SameMotor .L s t ∧ SameMotor .R s t ∧ SameEnables s t ∧
    SameCaptures s t ∧ SameEnv s t

/-- One iteration of the loop (44_control_loop.md section 1; the outputs are the spec's own inference R204): seven
SEQ_STEPs from phase 4, with no other stimulus between them, drive both motors from the conditioned values at
the start, report them once, and come back to phase 4. -/
def Obligations.LoopIterationDrivesBothMotors : Prop :=
  ∀ (s : State) (xs rest : List Stimulus), s.seqPhase = phLReadL → s.stimuli = xs ++ rest → xs.length = 7 →
    PlainStream s.time xs → (∀ x ∈ xs, x.word = 0x40#8) →
    ∃ t, runSteps 7 s = .next t ∧ t.seqPhase = phLReadL ∧ t.snapL = s.condL ∧ t.snapR = s.condR ∧
      (∀ c, t.sel c (dir s.cfg (s.condOf c)) = duty s.cfg (s.condOf c) ∧
        t.otherLine c (dir s.cfg (s.condOf c)) = 0) ∧
      t.diag = s.diag ++ [.loopReport s.condL s.condR] ∧ SameCaptures s t ∧ SameGate s t ∧ SameEnables s t ∧
      t.stimuli = rest

/-- The spec's own inference in 70_reset_and_hazards.md section 3 (R266): if channel c's input stops changing (no edge
of c, and no RESET; the other channel may go on), `COND_c` and the enables stay, and once an iteration begun
since then has completed, motor c's lines follow the held `COND_c`, in every later state too. From phase 4 that
is after seven SEQ_STEPs; from any phase of the loop at most six more complete the iteration in progress. -/
def Obligations.LastCommandHeldWithoutSignal : Prop :=
  ∀ (c : Channel) (k : Nat) (s t : State), 4 ≤ s.seqPhase.toNat → s.seqPhase.toNat ≤ 10 →
    QuietFor c s.stimuli → runSteps k s = .next t →
    SameCapture c s t ∧ SameEnables s t ∧ 4 ≤ t.seqPhase.toNat ∧
    ((s.seqPhase = phLReadL ∧ 7 ≤ seqCount k s.stimuli) ∨ 13 ≤ seqCount k s.stimuli →
      t.snap c = s.condOf c ∧ MotorFollows c t)

/-! ### Infinite runs -/

/-- The first consequence the spec draws from fairness (60_exceptions.md section 7, R234, with 41_gate.md section 3,
R147): in every fair infinite run without RESET from the gate's start phase, the first SEQ_STEP, at a time `S`, performs
GATE_START, and the gate releases and stays released, whatever the inputs do and for every configuration,

* after the third of three SEQ_STEPs at times in `[S + GATE_TIMEOUT, S + 2^W)`;
* where the SEQ_STEPs come at most `D` µs apart and `GATE_TIMEOUT + 3 * D < 2^W`: then T, which grows without bound,
  cannot pass that window over before three of them have come.

Some such premise on the environment's times is needed beside fairness, since elapsed times are read modulo `2^W`
(R265, log entry 26); neither speaks of the run's states. -/
def Obligations.FairRunReleasesGate : Prop :=
  ∀ (env : Nat → Stimulus) (ρ : Nat → State), IsRun env ρ → Fair env → NoReset env → (ρ 0).seqPhase = phGStart →
    ∃ m, FirstSeq env m ∧ (ρ (m + 1)).seqPhase = phGReadL ∧
      (ρ (m + 1)).gateT0 = wmod (ρ 0).cfg.clkBits (env m).t ∧
      (∀ k, SeqsPastTimeout (ρ 0).cfg env m k → ∀ n, k < n → Released (ρ n)) ∧
      ∀ D, SeqGapsWithin D env → (ρ 0).cfg.gateTimeout + 3 * D < 2 ^ (ρ 0).cfg.clkBits →
        ∃ k, ∀ n, k < n → Released (ρ n)

/-- The second (60_exceptions.md section 7, R234): in a fair infinite run without RESET every iteration of the loop
completes. From every point at which the sequencer is in the loop a LOOP_DIAG comes, which appends its report and
leads back to phase 4. -/
def Obligations.FairRunCompletesLoopIterations : Prop :=
  ∀ (env : Nat → Stimulus) (ρ : Nat → State), IsRun env ρ → Fair env → NoReset env →
    ∀ n, 4 ≤ (ρ n).seqPhase.toNat → (ρ n).seqPhase.toNat ≤ 10 →
      ∃ m, n ≤ m ∧ (ρ m).seqPhase = phLDiag ∧ (env m).word = 0x40#8 ∧ (ρ (m + 1)).seqPhase = phLReadL ∧
        (ρ (m + 1)).diag = (ρ m).diag ++ [.loopReport (ρ m).snapL (ρ m).snapR]

/-- Fairness is a premise that nothing in the model forces, and without either half of it the gate may never release
(60_exceptions.md section 7, R234; 41_gate.md section 3, R147: "If the clock does not advance, the gate loops
forever in phases 1 to 3"). With positive durations the gate never releases in a run whose T stands still. Each half
may fail while the other holds, in a run from reset that never leaves the gate: one has SEQ_STEPs forever and a bounded
T, the other an unbounded T and only finitely many SEQ_STEPs. -/
def Obligations.UnfairRunMayNeverRelease : Prop :=
  (∀ (env : Nat → Stimulus) (ρ : Nat → State) (T : Nat), IsRun env ρ → (ρ 0).seqPhase = phGStart →
    0 < (ρ 0).cfg.gateWindow → 0 < (ρ 0).cfg.gateTimeout → (∀ n, (env n).t = T) →
    ∀ n, (ρ n).seqPhase.toNat < 4) ∧
  (∃ env ρ, ρ 0 = State.reset ∧ IsRun env ρ ∧ SeqForever env ∧ ¬ TimeUnbounded env ∧ NoReset env ∧
    ∀ n, 1 ≤ n → 1 ≤ (ρ n).seqPhase.toNat ∧ (ρ n).seqPhase.toNat < 4) ∧
  ∃ env ρ, ρ 0 = State.reset ∧ IsRun env ρ ∧ TimeUnbounded env ∧ ¬ SeqForever env ∧ NoReset env ∧
    ∀ n, 1 ≤ n → 1 ≤ (ρ n).seqPhase.toNat ∧ (ρ n).seqPhase.toNat < 4

/-! ### The outputs along a run -/

/-- The invariant of the sequencer's registers holds of a block with every register at its reset value. -/
def Obligations.DriveSafeAfterReset : Prop :=
  DriveSafe State.reset ∧ ∀ (c : Config) (T : Nat) (xs : List Stimulus), DriveSafe (State.initial c T xs)

/-- The invariant is kept by every step, from every state that has it. It contains the spec's own inferences R148
(outputs 0 before the release), R185 (the two lines of a motor never both driven) and R204 (the lines follow
the snapshot after MAP_DRIVE_c). -/
def Obligations.DriveSafePreservedByEveryStep : Prop :=
  ∀ s t : State, DriveSafe s → step s = .next t → DriveSafe t

/-- The spec's own inference in 43_mapper.md section 2 (R185), over every run from power-on, of every stream, with
every configuration: for each motor at least one line is 0. -/
def Obligations.LinesNeverBothDrivenInAnyRun : Prop :=
  ∀ (c : Config) (T : Nat) (xs : List Stimulus) (k : Nat) (t : State),
    runSteps k (State.initial c T xs) = .next t →
    (t.pwmLA = 0 ∨ t.pwmLB = 0) ∧ (t.pwmRA = 0 ∨ t.pwmRB = 0)

/-- The spec's own inference in 41_gate.md section 3 (R148), over every run from power-on: until the gate releases
every duty register and both enables hold 0, and `CAUSE` is `NONE`; an enabled block has released. -/
def Obligations.OutputsDeadUntilRelease : Prop :=
  ∀ (c : Config) (T : Nat) (xs : List Stimulus) (k : Nat) (t : State),
    runSteps k (State.initial c T xs) = .next t →
    (t.seqPhase.toNat < 4 → t.pwmLA = 0 ∧ t.pwmLB = 0 ∧ t.pwmRA = 0 ∧ t.pwmRB = 0 ∧
      t.enL = false ∧ t.enR = false ∧ t.cause = 0#2) ∧
    (t.enL = true → t.enR = true ∧ 4 ≤ t.seqPhase.toNat ∧ (t.cause = 1#2 ∨ t.cause = 2#2))

/-- The spec's own inference in 70_reset_and_hazards.md section 3 (R261), with the default parameters: in a run from
power-on in which channel c never conditions a value (no left fall; no right edge), `COND_c` stays 0, and after
each MAP_DRIVE_c of the loop its motor is driven full backward. -/
def Obligations.UnconditionedChannelDrivesFullBackward : Prop :=
  ∀ (T : Nat) (xs : List Stimulus) (k : Nat) (t : State),
    runSteps k (State.initial Config.default T xs) = .next t →
    ((∀ x ∈ xs, x.word ≠ 0x00#8) →
      t.condL = 0 ∧ (8 ≤ t.seqPhase.toNat → t.pwmLA = 0 ∧ t.pwmLB = 255)) ∧
    ((∀ x ∈ xs, x.word ≠ 0x02#8 ∧ x.word ≠ 0x03#8) →
      t.condR = 0 ∧ (t.seqPhase = 10#4 → t.pwmRA = 0 ∧ t.pwmRB = 255))

/-- `DIAG` only grows, by at most one record a step, and only when a SEQ_STEP performs a GATE_EVAL, which appends a
status record of the snapshots, or a LOOP_DIAG, which appends their report; RESET alone empties it
(60_exceptions.md section 8, 10_state.md section 5). -/
def Obligations.DiagOnlyAppendedByEvalAndReport : Prop :=
  ∀ (s t : State), step s = .next t → (∀ x rest, s.stimuli = x :: rest → x.word ≠ 0x80#8) →
    t.diag = s.diag ∨
    ∃ x rest r, s.stimuli = x :: rest ∧ x.word = 0x40#8 ∧ t.diag = s.diag ++ [r] ∧
      ((s.seqPhase = phGEval ∧ ∃ q, r = .gateStatus q s.snapL s.snapR) ∨
        (s.seqPhase = phLDiag ∧ r = .loopReport s.snapL s.snapR))

/-- No operation reads `DIAG` (60_exceptions.md section 8): RESET empties any trace and gives the same state; every
other operation appends records that do not depend on the trace, and with another trace in its place gives the same
state, the same records appended to that trace. -/
def Obligations.NoOperationReadsDiag : Prop :=
  ∀ (i : Instr) (s t : State), exec i s = .next t →
    (i = .reset ∧ t.diag = [] ∧ ∀ ds, exec i { s with diag := ds } = .next t) ∨
    (i ≠ .reset ∧ ∃ rs, t.diag = s.diag ++ rs ∧
      ∀ ds, exec i { s with diag := ds } = .next { t with diag := ds ++ rs })

/-- The sequencer reads the capture agents' registers only through `COND_L` and `COND_R` (60_exceptions.md section 7):
other values of `TS_c` and `REF_c` change nothing it does, and it leaves them as they are. -/
def Obligations.SequencerReadsOnlyConditionedValues : Prop :=
  ∀ (s t : State) (a b c d : Nat), exec .seqStep s = .next t →
    exec .seqStep { s with tsL := a, refL := b, tsR := c, refR := d } =
      .next { t with tsL := a, refL := b, tsR := c, refR := d }

/-! ### Reset and the registers' widths -/

/-- 70_reset_and_hazards.md R250: RESET puts every piece of state to its reset value in one step, in every state. (What
becomes of the parameters, the clock and the stream, which are not the block's, is in `StreamConventions`.) -/
def Obligations.ResetRestoresEveryRegister : Prop :=
  decodeByte 0x80#8 = .ok .reset ∧
  ∀ s : State, ∃ t, exec .reset s = .next t ∧
    (∀ c, t.ts c = 0 ∧ t.ref c = 0 ∧ t.condOf c = 0 ∧ t.snap c = 0 ∧ ∀ d, t.sel c d = 0) ∧
    t.gateT0 = 0 ∧ t.streakT0 = 0 ∧ t.seqPhase = 0#4 ∧ t.cause = 0#2 ∧ t.enL = false ∧ t.enR = false ∧
    t.diag = []

/-- 10_state.md R55: the value of every register after reset. -/
def Obligations.StateAfterReset : Prop :=
  let r := State.reset
  r.tsL = 0 ∧ r.tsR = 0 ∧ r.refL = 0 ∧ r.refR = 0 ∧ r.condL = 0 ∧ r.condR = 0 ∧ r.seqPhase = 0#4 ∧
  r.gateT0 = 0 ∧ r.streakT0 = 0 ∧ r.cause = 0#2 ∧ r.snapL = 0 ∧ r.snapR = 0 ∧ r.pwmLA = 0 ∧ r.pwmLB = 0 ∧
  r.pwmRA = 0 ∧ r.pwmRB = 0 ∧ r.enL = false ∧ r.enR = false ∧ r.diag = []

/-- Every register is in its range after reset, for every configuration whose parameters fit. -/
def Obligations.RegistersInRangeAfterReset : Prop :=
  RegistersInRange State.reset ∧
  ∀ (c : Config) (T : Nat) (xs : List Stimulus), c.wf = true → RegistersInRange (State.initial c T xs)

/-- Every step keeps every register in `[0, 2^width)` (00_scope.md section 5, 10_state.md section 5). -/
def Obligations.RegistersInRangePreservedByEveryStep : Prop :=
  ∀ s t : State, RegistersInRange s → step s = .next t → RegistersInRange t
end

