-- ==== Sys2Proof/Laws/State.lean ====
section
/-! SUPPORT. One lemma per field per register writer, so that no proof unfolds a record update. Writers that
take a channel have their two cases apart where a field differs. -/

namespace Sys2Proof.Machine

variable (s : State) (c : Channel) (d : Direction) (v : Nat) (p : BitVec 4) (b : Bool) (q : BitVec 2)
variable (r : DiagRecord) (x : Stimulus) (xs : List Stimulus)

/-! `writeTs` -/

@[simp] theorem writeTs_cfg : (s.writeTs c v).cfg = s.cfg := by cases c <;> rfl
@[simp] theorem writeTs_time : (s.writeTs c v).time = s.time := by cases c <;> rfl
@[simp] theorem writeTs_stimuli : (s.writeTs c v).stimuli = s.stimuli := by cases c <;> rfl
@[simp] theorem writeTs_L_tsL : (s.writeTs .L v).tsL = v := rfl
@[simp] theorem writeTs_R_tsL : (s.writeTs .R v).tsL = s.tsL := rfl
@[simp] theorem writeTs_refL : (s.writeTs c v).refL = s.refL := by cases c <;> rfl
@[simp] theorem writeTs_condL : (s.writeTs c v).condL = s.condL := by cases c <;> rfl
@[simp] theorem writeTs_R_tsR : (s.writeTs .R v).tsR = v := rfl
@[simp] theorem writeTs_L_tsR : (s.writeTs .L v).tsR = s.tsR := rfl
@[simp] theorem writeTs_refR : (s.writeTs c v).refR = s.refR := by cases c <;> rfl
@[simp] theorem writeTs_condR : (s.writeTs c v).condR = s.condR := by cases c <;> rfl
@[simp] theorem writeTs_seqPhase : (s.writeTs c v).seqPhase = s.seqPhase := by cases c <;> rfl
@[simp] theorem writeTs_gateT0 : (s.writeTs c v).gateT0 = s.gateT0 := by cases c <;> rfl
@[simp] theorem writeTs_streakT0 : (s.writeTs c v).streakT0 = s.streakT0 := by cases c <;> rfl
@[simp] theorem writeTs_cause : (s.writeTs c v).cause = s.cause := by cases c <;> rfl
@[simp] theorem writeTs_snapL : (s.writeTs c v).snapL = s.snapL := by cases c <;> rfl
@[simp] theorem writeTs_snapR : (s.writeTs c v).snapR = s.snapR := by cases c <;> rfl
@[simp] theorem writeTs_pwmLA : (s.writeTs c v).pwmLA = s.pwmLA := by cases c <;> rfl
@[simp] theorem writeTs_pwmLB : (s.writeTs c v).pwmLB = s.pwmLB := by cases c <;> rfl
@[simp] theorem writeTs_pwmRA : (s.writeTs c v).pwmRA = s.pwmRA := by cases c <;> rfl
@[simp] theorem writeTs_pwmRB : (s.writeTs c v).pwmRB = s.pwmRB := by cases c <;> rfl
@[simp] theorem writeTs_enL : (s.writeTs c v).enL = s.enL := by cases c <;> rfl
@[simp] theorem writeTs_enR : (s.writeTs c v).enR = s.enR := by cases c <;> rfl
@[simp] theorem writeTs_diag : (s.writeTs c v).diag = s.diag := by cases c <;> rfl
@[simp] theorem writeTs_same : (s.writeTs c v).ts c = v := by cases c <;> rfl
@[simp] theorem writeTs_other : (s.writeTs c v).ts c.other = s.ts c.other := by cases c <;> rfl

/-! `writeRef` -/

@[simp] theorem writeRef_cfg : (s.writeRef c v).cfg = s.cfg := by cases c <;> rfl
@[simp] theorem writeRef_time : (s.writeRef c v).time = s.time := by cases c <;> rfl
@[simp] theorem writeRef_stimuli : (s.writeRef c v).stimuli = s.stimuli := by cases c <;> rfl
@[simp] theorem writeRef_tsL : (s.writeRef c v).tsL = s.tsL := by cases c <;> rfl
@[simp] theorem writeRef_L_refL : (s.writeRef .L v).refL = v := rfl
@[simp] theorem writeRef_R_refL : (s.writeRef .R v).refL = s.refL := rfl
@[simp] theorem writeRef_condL : (s.writeRef c v).condL = s.condL := by cases c <;> rfl
@[simp] theorem writeRef_tsR : (s.writeRef c v).tsR = s.tsR := by cases c <;> rfl
@[simp] theorem writeRef_R_refR : (s.writeRef .R v).refR = v := rfl
@[simp] theorem writeRef_L_refR : (s.writeRef .L v).refR = s.refR := rfl
@[simp] theorem writeRef_condR : (s.writeRef c v).condR = s.condR := by cases c <;> rfl
@[simp] theorem writeRef_seqPhase : (s.writeRef c v).seqPhase = s.seqPhase := by cases c <;> rfl
@[simp] theorem writeRef_gateT0 : (s.writeRef c v).gateT0 = s.gateT0 := by cases c <;> rfl
@[simp] theorem writeRef_streakT0 : (s.writeRef c v).streakT0 = s.streakT0 := by cases c <;> rfl
@[simp] theorem writeRef_cause : (s.writeRef c v).cause = s.cause := by cases c <;> rfl
@[simp] theorem writeRef_snapL : (s.writeRef c v).snapL = s.snapL := by cases c <;> rfl
@[simp] theorem writeRef_snapR : (s.writeRef c v).snapR = s.snapR := by cases c <;> rfl
@[simp] theorem writeRef_pwmLA : (s.writeRef c v).pwmLA = s.pwmLA := by cases c <;> rfl
@[simp] theorem writeRef_pwmLB : (s.writeRef c v).pwmLB = s.pwmLB := by cases c <;> rfl
@[simp] theorem writeRef_pwmRA : (s.writeRef c v).pwmRA = s.pwmRA := by cases c <;> rfl
@[simp] theorem writeRef_pwmRB : (s.writeRef c v).pwmRB = s.pwmRB := by cases c <;> rfl
@[simp] theorem writeRef_enL : (s.writeRef c v).enL = s.enL := by cases c <;> rfl
@[simp] theorem writeRef_enR : (s.writeRef c v).enR = s.enR := by cases c <;> rfl
@[simp] theorem writeRef_diag : (s.writeRef c v).diag = s.diag := by cases c <;> rfl
@[simp] theorem writeRef_same : (s.writeRef c v).ref c = v := by cases c <;> rfl
@[simp] theorem writeRef_other : (s.writeRef c v).ref c.other = s.ref c.other := by cases c <;> rfl

/-! `writeCond` -/

@[simp] theorem writeCond_cfg : (s.writeCond c v).cfg = s.cfg := by cases c <;> rfl
@[simp] theorem writeCond_time : (s.writeCond c v).time = s.time := by cases c <;> rfl
@[simp] theorem writeCond_stimuli : (s.writeCond c v).stimuli = s.stimuli := by cases c <;> rfl
@[simp] theorem writeCond_tsL : (s.writeCond c v).tsL = s.tsL := by cases c <;> rfl
@[simp] theorem writeCond_refL : (s.writeCond c v).refL = s.refL := by cases c <;> rfl
@[simp] theorem writeCond_L_condL : (s.writeCond .L v).condL = v := rfl
@[simp] theorem writeCond_R_condL : (s.writeCond .R v).condL = s.condL := rfl
@[simp] theorem writeCond_tsR : (s.writeCond c v).tsR = s.tsR := by cases c <;> rfl
@[simp] theorem writeCond_refR : (s.writeCond c v).refR = s.refR := by cases c <;> rfl
@[simp] theorem writeCond_R_condR : (s.writeCond .R v).condR = v := rfl
@[simp] theorem writeCond_L_condR : (s.writeCond .L v).condR = s.condR := rfl
@[simp] theorem writeCond_seqPhase : (s.writeCond c v).seqPhase = s.seqPhase := by cases c <;> rfl
@[simp] theorem writeCond_gateT0 : (s.writeCond c v).gateT0 = s.gateT0 := by cases c <;> rfl
@[simp] theorem writeCond_streakT0 : (s.writeCond c v).streakT0 = s.streakT0 := by cases c <;> rfl
@[simp] theorem writeCond_cause : (s.writeCond c v).cause = s.cause := by cases c <;> rfl
@[simp] theorem writeCond_snapL : (s.writeCond c v).snapL = s.snapL := by cases c <;> rfl
@[simp] theorem writeCond_snapR : (s.writeCond c v).snapR = s.snapR := by cases c <;> rfl
@[simp] theorem writeCond_pwmLA : (s.writeCond c v).pwmLA = s.pwmLA := by cases c <;> rfl
@[simp] theorem writeCond_pwmLB : (s.writeCond c v).pwmLB = s.pwmLB := by cases c <;> rfl
@[simp] theorem writeCond_pwmRA : (s.writeCond c v).pwmRA = s.pwmRA := by cases c <;> rfl
@[simp] theorem writeCond_pwmRB : (s.writeCond c v).pwmRB = s.pwmRB := by cases c <;> rfl
@[simp] theorem writeCond_enL : (s.writeCond c v).enL = s.enL := by cases c <;> rfl
@[simp] theorem writeCond_enR : (s.writeCond c v).enR = s.enR := by cases c <;> rfl
@[simp] theorem writeCond_diag : (s.writeCond c v).diag = s.diag := by cases c <;> rfl
@[simp] theorem writeCond_same : (s.writeCond c v).condOf c = v := by cases c <;> rfl
@[simp] theorem writeCond_other : (s.writeCond c v).condOf c.other = s.condOf c.other := by cases c <;> rfl

/-! `writeSnap` -/

@[simp] theorem writeSnap_cfg : (s.writeSnap c v).cfg = s.cfg := by cases c <;> rfl
@[simp] theorem writeSnap_time : (s.writeSnap c v).time = s.time := by cases c <;> rfl
@[simp] theorem writeSnap_stimuli : (s.writeSnap c v).stimuli = s.stimuli := by cases c <;> rfl
@[simp] theorem writeSnap_tsL : (s.writeSnap c v).tsL = s.tsL := by cases c <;> rfl
@[simp] theorem writeSnap_refL : (s.writeSnap c v).refL = s.refL := by cases c <;> rfl
@[simp] theorem writeSnap_condL : (s.writeSnap c v).condL = s.condL := by cases c <;> rfl
@[simp] theorem writeSnap_tsR : (s.writeSnap c v).tsR = s.tsR := by cases c <;> rfl
@[simp] theorem writeSnap_refR : (s.writeSnap c v).refR = s.refR := by cases c <;> rfl
@[simp] theorem writeSnap_condR : (s.writeSnap c v).condR = s.condR := by cases c <;> rfl
@[simp] theorem writeSnap_seqPhase : (s.writeSnap c v).seqPhase = s.seqPhase := by cases c <;> rfl
@[simp] theorem writeSnap_gateT0 : (s.writeSnap c v).gateT0 = s.gateT0 := by cases c <;> rfl
@[simp] theorem writeSnap_streakT0 : (s.writeSnap c v).streakT0 = s.streakT0 := by cases c <;> rfl
@[simp] theorem writeSnap_cause : (s.writeSnap c v).cause = s.cause := by cases c <;> rfl
@[simp] theorem writeSnap_L_snapL : (s.writeSnap .L v).snapL = v := rfl
@[simp] theorem writeSnap_R_snapL : (s.writeSnap .R v).snapL = s.snapL := rfl
@[simp] theorem writeSnap_R_snapR : (s.writeSnap .R v).snapR = v := rfl
@[simp] theorem writeSnap_L_snapR : (s.writeSnap .L v).snapR = s.snapR := rfl
@[simp] theorem writeSnap_pwmLA : (s.writeSnap c v).pwmLA = s.pwmLA := by cases c <;> rfl
@[simp] theorem writeSnap_pwmLB : (s.writeSnap c v).pwmLB = s.pwmLB := by cases c <;> rfl
@[simp] theorem writeSnap_pwmRA : (s.writeSnap c v).pwmRA = s.pwmRA := by cases c <;> rfl
@[simp] theorem writeSnap_pwmRB : (s.writeSnap c v).pwmRB = s.pwmRB := by cases c <;> rfl
@[simp] theorem writeSnap_enL : (s.writeSnap c v).enL = s.enL := by cases c <;> rfl
@[simp] theorem writeSnap_enR : (s.writeSnap c v).enR = s.enR := by cases c <;> rfl
@[simp] theorem writeSnap_diag : (s.writeSnap c v).diag = s.diag := by cases c <;> rfl
@[simp] theorem writeSnap_same : (s.writeSnap c v).snap c = v := by cases c <;> rfl
@[simp] theorem writeSnap_other : (s.writeSnap c v).snap c.other = s.snap c.other := by cases c <;> rfl

/-! `writeLine` -/

@[simp] theorem writeLine_cfg : (s.writeLine c d v).cfg = s.cfg := by cases c <;> cases d <;> rfl
@[simp] theorem writeLine_time : (s.writeLine c d v).time = s.time := by cases c <;> cases d <;> rfl
@[simp] theorem writeLine_stimuli : (s.writeLine c d v).stimuli = s.stimuli := by cases c <;> cases d <;> rfl
@[simp] theorem writeLine_tsL : (s.writeLine c d v).tsL = s.tsL := by cases c <;> cases d <;> rfl
@[simp] theorem writeLine_refL : (s.writeLine c d v).refL = s.refL := by cases c <;> cases d <;> rfl
@[simp] theorem writeLine_condL : (s.writeLine c d v).condL = s.condL := by cases c <;> cases d <;> rfl
@[simp] theorem writeLine_tsR : (s.writeLine c d v).tsR = s.tsR := by cases c <;> cases d <;> rfl
@[simp] theorem writeLine_refR : (s.writeLine c d v).refR = s.refR := by cases c <;> cases d <;> rfl
@[simp] theorem writeLine_condR : (s.writeLine c d v).condR = s.condR := by cases c <;> cases d <;> rfl
@[simp] theorem writeLine_seqPhase : (s.writeLine c d v).seqPhase = s.seqPhase := by cases c <;> cases d <;> rfl
@[simp] theorem writeLine_gateT0 : (s.writeLine c d v).gateT0 = s.gateT0 := by cases c <;> cases d <;> rfl
@[simp] theorem writeLine_streakT0 : (s.writeLine c d v).streakT0 = s.streakT0 := by cases c <;> cases d <;> rfl
@[simp] theorem writeLine_cause : (s.writeLine c d v).cause = s.cause := by cases c <;> cases d <;> rfl
@[simp] theorem writeLine_snapL : (s.writeLine c d v).snapL = s.snapL := by cases c <;> cases d <;> rfl
@[simp] theorem writeLine_snapR : (s.writeLine c d v).snapR = s.snapR := by cases c <;> cases d <;> rfl
@[simp] theorem writeLine_R_pwmLA : (s.writeLine .R d v).pwmLA = s.pwmLA := by cases d <;> rfl
@[simp] theorem writeLine_L_forward_pwmLA : (s.writeLine .L .forward v).pwmLA = v := rfl
@[simp] theorem writeLine_L_backward_pwmLA : (s.writeLine .L .backward v).pwmLA = s.pwmLA := rfl
@[simp] theorem writeLine_R_pwmLB : (s.writeLine .R d v).pwmLB = s.pwmLB := by cases d <;> rfl
@[simp] theorem writeLine_L_forward_pwmLB : (s.writeLine .L .forward v).pwmLB = s.pwmLB := rfl
@[simp] theorem writeLine_L_backward_pwmLB : (s.writeLine .L .backward v).pwmLB = v := rfl
@[simp] theorem writeLine_L_pwmRA : (s.writeLine .L d v).pwmRA = s.pwmRA := by cases d <;> rfl
@[simp] theorem writeLine_R_forward_pwmRA : (s.writeLine .R .forward v).pwmRA = v := rfl
@[simp] theorem writeLine_R_backward_pwmRA : (s.writeLine .R .backward v).pwmRA = s.pwmRA := rfl
@[simp] theorem writeLine_L_pwmRB : (s.writeLine .L d v).pwmRB = s.pwmRB := by cases d <;> rfl
@[simp] theorem writeLine_R_forward_pwmRB : (s.writeLine .R .forward v).pwmRB = s.pwmRB := rfl
@[simp] theorem writeLine_R_backward_pwmRB : (s.writeLine .R .backward v).pwmRB = v := rfl
@[simp] theorem writeLine_enL : (s.writeLine c d v).enL = s.enL := by cases c <;> cases d <;> rfl
@[simp] theorem writeLine_enR : (s.writeLine c d v).enR = s.enR := by cases c <;> cases d <;> rfl
@[simp] theorem writeLine_diag : (s.writeLine c d v).diag = s.diag := by cases c <;> cases d <;> rfl
@[simp] theorem writeLine_sel_same : (s.writeLine c d v).sel c d = v := by cases c <;> cases d <;> rfl
@[simp] theorem writeLine_sel_opposite : (s.writeLine c d v).sel c d.opposite = s.sel c d.opposite := by
  cases c <;> cases d <;> rfl
@[simp] theorem writeLine_sel_otherChannel (e : Direction) : (s.writeLine c d v).sel c.other e = s.sel c.other e := by
  cases c <;> cases d <;> cases e <;> rfl

/-! `writePhase` -/

@[simp] theorem writePhase_cfg : (s.writePhase p).cfg = s.cfg := rfl
@[simp] theorem writePhase_time : (s.writePhase p).time = s.time := rfl
@[simp] theorem writePhase_stimuli : (s.writePhase p).stimuli = s.stimuli := rfl
@[simp] theorem writePhase_tsL : (s.writePhase p).tsL = s.tsL := rfl
@[simp] theorem writePhase_refL : (s.writePhase p).refL = s.refL := rfl
@[simp] theorem writePhase_condL : (s.writePhase p).condL = s.condL := rfl
@[simp] theorem writePhase_tsR : (s.writePhase p).tsR = s.tsR := rfl
@[simp] theorem writePhase_refR : (s.writePhase p).refR = s.refR := rfl
@[simp] theorem writePhase_condR : (s.writePhase p).condR = s.condR := rfl
@[simp] theorem writePhase_seqPhase : (s.writePhase p).seqPhase = p := rfl
@[simp] theorem writePhase_gateT0 : (s.writePhase p).gateT0 = s.gateT0 := rfl
@[simp] theorem writePhase_streakT0 : (s.writePhase p).streakT0 = s.streakT0 := rfl
@[simp] theorem writePhase_cause : (s.writePhase p).cause = s.cause := rfl
@[simp] theorem writePhase_snapL : (s.writePhase p).snapL = s.snapL := rfl
@[simp] theorem writePhase_snapR : (s.writePhase p).snapR = s.snapR := rfl
@[simp] theorem writePhase_pwmLA : (s.writePhase p).pwmLA = s.pwmLA := rfl
@[simp] theorem writePhase_pwmLB : (s.writePhase p).pwmLB = s.pwmLB := rfl
@[simp] theorem writePhase_pwmRA : (s.writePhase p).pwmRA = s.pwmRA := rfl
@[simp] theorem writePhase_pwmRB : (s.writePhase p).pwmRB = s.pwmRB := rfl
@[simp] theorem writePhase_enL : (s.writePhase p).enL = s.enL := rfl
@[simp] theorem writePhase_enR : (s.writePhase p).enR = s.enR := rfl
@[simp] theorem writePhase_diag : (s.writePhase p).diag = s.diag := rfl

/-! `writeGateT0` -/

@[simp] theorem writeGateT0_cfg : (s.writeGateT0 v).cfg = s.cfg := rfl
@[simp] theorem writeGateT0_time : (s.writeGateT0 v).time = s.time := rfl
@[simp] theorem writeGateT0_stimuli : (s.writeGateT0 v).stimuli = s.stimuli := rfl
@[simp] theorem writeGateT0_tsL : (s.writeGateT0 v).tsL = s.tsL := rfl
@[simp] theorem writeGateT0_refL : (s.writeGateT0 v).refL = s.refL := rfl
@[simp] theorem writeGateT0_condL : (s.writeGateT0 v).condL = s.condL := rfl
@[simp] theorem writeGateT0_tsR : (s.writeGateT0 v).tsR = s.tsR := rfl
@[simp] theorem writeGateT0_refR : (s.writeGateT0 v).refR = s.refR := rfl
@[simp] theorem writeGateT0_condR : (s.writeGateT0 v).condR = s.condR := rfl
@[simp] theorem writeGateT0_seqPhase : (s.writeGateT0 v).seqPhase = s.seqPhase := rfl
@[simp] theorem writeGateT0_gateT0 : (s.writeGateT0 v).gateT0 = v := rfl
@[simp] theorem writeGateT0_streakT0 : (s.writeGateT0 v).streakT0 = s.streakT0 := rfl
@[simp] theorem writeGateT0_cause : (s.writeGateT0 v).cause = s.cause := rfl
@[simp] theorem writeGateT0_snapL : (s.writeGateT0 v).snapL = s.snapL := rfl
@[simp] theorem writeGateT0_snapR : (s.writeGateT0 v).snapR = s.snapR := rfl
@[simp] theorem writeGateT0_pwmLA : (s.writeGateT0 v).pwmLA = s.pwmLA := rfl
@[simp] theorem writeGateT0_pwmLB : (s.writeGateT0 v).pwmLB = s.pwmLB := rfl
@[simp] theorem writeGateT0_pwmRA : (s.writeGateT0 v).pwmRA = s.pwmRA := rfl
@[simp] theorem writeGateT0_pwmRB : (s.writeGateT0 v).pwmRB = s.pwmRB := rfl
@[simp] theorem writeGateT0_enL : (s.writeGateT0 v).enL = s.enL := rfl
@[simp] theorem writeGateT0_enR : (s.writeGateT0 v).enR = s.enR := rfl
@[simp] theorem writeGateT0_diag : (s.writeGateT0 v).diag = s.diag := rfl

/-! `writeStreakT0` -/

@[simp] theorem writeStreakT0_cfg : (s.writeStreakT0 v).cfg = s.cfg := rfl
@[simp] theorem writeStreakT0_time : (s.writeStreakT0 v).time = s.time := rfl
@[simp] theorem writeStreakT0_stimuli : (s.writeStreakT0 v).stimuli = s.stimuli := rfl
@[simp] theorem writeStreakT0_tsL : (s.writeStreakT0 v).tsL = s.tsL := rfl
@[simp] theorem writeStreakT0_refL : (s.writeStreakT0 v).refL = s.refL := rfl
@[simp] theorem writeStreakT0_condL : (s.writeStreakT0 v).condL = s.condL := rfl
@[simp] theorem writeStreakT0_tsR : (s.writeStreakT0 v).tsR = s.tsR := rfl
@[simp] theorem writeStreakT0_refR : (s.writeStreakT0 v).refR = s.refR := rfl
@[simp] theorem writeStreakT0_condR : (s.writeStreakT0 v).condR = s.condR := rfl
@[simp] theorem writeStreakT0_seqPhase : (s.writeStreakT0 v).seqPhase = s.seqPhase := rfl
@[simp] theorem writeStreakT0_gateT0 : (s.writeStreakT0 v).gateT0 = s.gateT0 := rfl
@[simp] theorem writeStreakT0_streakT0 : (s.writeStreakT0 v).streakT0 = v := rfl
@[simp] theorem writeStreakT0_cause : (s.writeStreakT0 v).cause = s.cause := rfl
@[simp] theorem writeStreakT0_snapL : (s.writeStreakT0 v).snapL = s.snapL := rfl
@[simp] theorem writeStreakT0_snapR : (s.writeStreakT0 v).snapR = s.snapR := rfl
@[simp] theorem writeStreakT0_pwmLA : (s.writeStreakT0 v).pwmLA = s.pwmLA := rfl
@[simp] theorem writeStreakT0_pwmLB : (s.writeStreakT0 v).pwmLB = s.pwmLB := rfl
@[simp] theorem writeStreakT0_pwmRA : (s.writeStreakT0 v).pwmRA = s.pwmRA := rfl
@[simp] theorem writeStreakT0_pwmRB : (s.writeStreakT0 v).pwmRB = s.pwmRB := rfl
@[simp] theorem writeStreakT0_enL : (s.writeStreakT0 v).enL = s.enL := rfl
@[simp] theorem writeStreakT0_enR : (s.writeStreakT0 v).enR = s.enR := rfl
@[simp] theorem writeStreakT0_diag : (s.writeStreakT0 v).diag = s.diag := rfl

/-! `writeCause` -/

@[simp] theorem writeCause_cfg : (s.writeCause q).cfg = s.cfg := rfl
@[simp] theorem writeCause_time : (s.writeCause q).time = s.time := rfl
@[simp] theorem writeCause_stimuli : (s.writeCause q).stimuli = s.stimuli := rfl
@[simp] theorem writeCause_tsL : (s.writeCause q).tsL = s.tsL := rfl
@[simp] theorem writeCause_refL : (s.writeCause q).refL = s.refL := rfl
@[simp] theorem writeCause_condL : (s.writeCause q).condL = s.condL := rfl
@[simp] theorem writeCause_tsR : (s.writeCause q).tsR = s.tsR := rfl
@[simp] theorem writeCause_refR : (s.writeCause q).refR = s.refR := rfl
@[simp] theorem writeCause_condR : (s.writeCause q).condR = s.condR := rfl
@[simp] theorem writeCause_seqPhase : (s.writeCause q).seqPhase = s.seqPhase := rfl
@[simp] theorem writeCause_gateT0 : (s.writeCause q).gateT0 = s.gateT0 := rfl
@[simp] theorem writeCause_streakT0 : (s.writeCause q).streakT0 = s.streakT0 := rfl
@[simp] theorem writeCause_cause : (s.writeCause q).cause = q := rfl
@[simp] theorem writeCause_snapL : (s.writeCause q).snapL = s.snapL := rfl
@[simp] theorem writeCause_snapR : (s.writeCause q).snapR = s.snapR := rfl
@[simp] theorem writeCause_pwmLA : (s.writeCause q).pwmLA = s.pwmLA := rfl
@[simp] theorem writeCause_pwmLB : (s.writeCause q).pwmLB = s.pwmLB := rfl
@[simp] theorem writeCause_pwmRA : (s.writeCause q).pwmRA = s.pwmRA := rfl
@[simp] theorem writeCause_pwmRB : (s.writeCause q).pwmRB = s.pwmRB := rfl
@[simp] theorem writeCause_enL : (s.writeCause q).enL = s.enL := rfl
@[simp] theorem writeCause_enR : (s.writeCause q).enR = s.enR := rfl
@[simp] theorem writeCause_diag : (s.writeCause q).diag = s.diag := rfl

/-! `writeEnables` -/

@[simp] theorem writeEnables_cfg : (s.writeEnables b).cfg = s.cfg := rfl
@[simp] theorem writeEnables_time : (s.writeEnables b).time = s.time := rfl
@[simp] theorem writeEnables_stimuli : (s.writeEnables b).stimuli = s.stimuli := rfl
@[simp] theorem writeEnables_tsL : (s.writeEnables b).tsL = s.tsL := rfl
@[simp] theorem writeEnables_refL : (s.writeEnables b).refL = s.refL := rfl
@[simp] theorem writeEnables_condL : (s.writeEnables b).condL = s.condL := rfl
@[simp] theorem writeEnables_tsR : (s.writeEnables b).tsR = s.tsR := rfl
@[simp] theorem writeEnables_refR : (s.writeEnables b).refR = s.refR := rfl
@[simp] theorem writeEnables_condR : (s.writeEnables b).condR = s.condR := rfl
@[simp] theorem writeEnables_seqPhase : (s.writeEnables b).seqPhase = s.seqPhase := rfl
@[simp] theorem writeEnables_gateT0 : (s.writeEnables b).gateT0 = s.gateT0 := rfl
@[simp] theorem writeEnables_streakT0 : (s.writeEnables b).streakT0 = s.streakT0 := rfl
@[simp] theorem writeEnables_cause : (s.writeEnables b).cause = s.cause := rfl
@[simp] theorem writeEnables_snapL : (s.writeEnables b).snapL = s.snapL := rfl
@[simp] theorem writeEnables_snapR : (s.writeEnables b).snapR = s.snapR := rfl
@[simp] theorem writeEnables_pwmLA : (s.writeEnables b).pwmLA = s.pwmLA := rfl
@[simp] theorem writeEnables_pwmLB : (s.writeEnables b).pwmLB = s.pwmLB := rfl
@[simp] theorem writeEnables_pwmRA : (s.writeEnables b).pwmRA = s.pwmRA := rfl
@[simp] theorem writeEnables_pwmRB : (s.writeEnables b).pwmRB = s.pwmRB := rfl
@[simp] theorem writeEnables_enL : (s.writeEnables b).enL = b := rfl
@[simp] theorem writeEnables_enR : (s.writeEnables b).enR = b := rfl
@[simp] theorem writeEnables_diag : (s.writeEnables b).diag = s.diag := rfl

/-! `emit` -/

@[simp] theorem emit_cfg : (s.emit r).cfg = s.cfg := rfl
@[simp] theorem emit_time : (s.emit r).time = s.time := rfl
@[simp] theorem emit_stimuli : (s.emit r).stimuli = s.stimuli := rfl
@[simp] theorem emit_tsL : (s.emit r).tsL = s.tsL := rfl
@[simp] theorem emit_refL : (s.emit r).refL = s.refL := rfl
@[simp] theorem emit_condL : (s.emit r).condL = s.condL := rfl
@[simp] theorem emit_tsR : (s.emit r).tsR = s.tsR := rfl
@[simp] theorem emit_refR : (s.emit r).refR = s.refR := rfl
@[simp] theorem emit_condR : (s.emit r).condR = s.condR := rfl
@[simp] theorem emit_seqPhase : (s.emit r).seqPhase = s.seqPhase := rfl
@[simp] theorem emit_gateT0 : (s.emit r).gateT0 = s.gateT0 := rfl
@[simp] theorem emit_streakT0 : (s.emit r).streakT0 = s.streakT0 := rfl
@[simp] theorem emit_cause : (s.emit r).cause = s.cause := rfl
@[simp] theorem emit_snapL : (s.emit r).snapL = s.snapL := rfl
@[simp] theorem emit_snapR : (s.emit r).snapR = s.snapR := rfl
@[simp] theorem emit_pwmLA : (s.emit r).pwmLA = s.pwmLA := rfl
@[simp] theorem emit_pwmLB : (s.emit r).pwmLB = s.pwmLB := rfl
@[simp] theorem emit_pwmRA : (s.emit r).pwmRA = s.pwmRA := rfl
@[simp] theorem emit_pwmRB : (s.emit r).pwmRB = s.pwmRB := rfl
@[simp] theorem emit_enL : (s.emit r).enL = s.enL := rfl
@[simp] theorem emit_enR : (s.emit r).enR = s.enR := rfl
@[simp] theorem emit_diag : (s.emit r).diag = s.diag ++ [r] := rfl

/-! `advance` -/

@[simp] theorem advance_cfg : (s.advance x xs).cfg = s.cfg := rfl
@[simp] theorem advance_time : (s.advance x xs).time = x.t := rfl
@[simp] theorem advance_stimuli : (s.advance x xs).stimuli = xs := rfl
@[simp] theorem advance_tsL : (s.advance x xs).tsL = s.tsL := rfl
@[simp] theorem advance_refL : (s.advance x xs).refL = s.refL := rfl
@[simp] theorem advance_condL : (s.advance x xs).condL = s.condL := rfl
@[simp] theorem advance_tsR : (s.advance x xs).tsR = s.tsR := rfl
@[simp] theorem advance_refR : (s.advance x xs).refR = s.refR := rfl
@[simp] theorem advance_condR : (s.advance x xs).condR = s.condR := rfl
@[simp] theorem advance_seqPhase : (s.advance x xs).seqPhase = s.seqPhase := rfl
@[simp] theorem advance_gateT0 : (s.advance x xs).gateT0 = s.gateT0 := rfl
@[simp] theorem advance_streakT0 : (s.advance x xs).streakT0 = s.streakT0 := rfl
@[simp] theorem advance_cause : (s.advance x xs).cause = s.cause := rfl
@[simp] theorem advance_snapL : (s.advance x xs).snapL = s.snapL := rfl
@[simp] theorem advance_snapR : (s.advance x xs).snapR = s.snapR := rfl
@[simp] theorem advance_pwmLA : (s.advance x xs).pwmLA = s.pwmLA := rfl
@[simp] theorem advance_pwmLB : (s.advance x xs).pwmLB = s.pwmLB := rfl
@[simp] theorem advance_pwmRA : (s.advance x xs).pwmRA = s.pwmRA := rfl
@[simp] theorem advance_pwmRB : (s.advance x xs).pwmRB = s.pwmRB := rfl
@[simp] theorem advance_enL : (s.advance x xs).enL = s.enL := rfl
@[simp] theorem advance_enR : (s.advance x xs).enR = s.enR := rfl
@[simp] theorem advance_diag : (s.advance x xs).diag = s.diag := rfl

/-! `pushWord` and `resetBlock` -/

@[simp] theorem pushWord_stimuli (w : BitVec 8) : (s.pushWord w).stimuli = ⟨w, s.time, none⟩ :: s.stimuli := rfl
@[simp] theorem pushWord_cfg (w : BitVec 8) : (s.pushWord w).cfg = s.cfg := rfl
@[simp] theorem pushWord_time (w : BitVec 8) : (s.pushWord w).time = s.time := rfl
@[simp] theorem pushWord_tsL (w : BitVec 8) : (s.pushWord w).tsL = s.tsL := rfl
@[simp] theorem pushWord_refL (w : BitVec 8) : (s.pushWord w).refL = s.refL := rfl
@[simp] theorem pushWord_condL (w : BitVec 8) : (s.pushWord w).condL = s.condL := rfl
@[simp] theorem pushWord_tsR (w : BitVec 8) : (s.pushWord w).tsR = s.tsR := rfl
@[simp] theorem pushWord_refR (w : BitVec 8) : (s.pushWord w).refR = s.refR := rfl
@[simp] theorem pushWord_condR (w : BitVec 8) : (s.pushWord w).condR = s.condR := rfl
@[simp] theorem pushWord_seqPhase (w : BitVec 8) : (s.pushWord w).seqPhase = s.seqPhase := rfl
@[simp] theorem pushWord_gateT0 (w : BitVec 8) : (s.pushWord w).gateT0 = s.gateT0 := rfl
@[simp] theorem pushWord_streakT0 (w : BitVec 8) : (s.pushWord w).streakT0 = s.streakT0 := rfl
@[simp] theorem pushWord_cause (w : BitVec 8) : (s.pushWord w).cause = s.cause := rfl
@[simp] theorem pushWord_snapL (w : BitVec 8) : (s.pushWord w).snapL = s.snapL := rfl
@[simp] theorem pushWord_snapR (w : BitVec 8) : (s.pushWord w).snapR = s.snapR := rfl
@[simp] theorem pushWord_pwmLA (w : BitVec 8) : (s.pushWord w).pwmLA = s.pwmLA := rfl
@[simp] theorem pushWord_pwmLB (w : BitVec 8) : (s.pushWord w).pwmLB = s.pwmLB := rfl
@[simp] theorem pushWord_pwmRA (w : BitVec 8) : (s.pushWord w).pwmRA = s.pwmRA := rfl
@[simp] theorem pushWord_pwmRB (w : BitVec 8) : (s.pushWord w).pwmRB = s.pwmRB := rfl
@[simp] theorem pushWord_enL (w : BitVec 8) : (s.pushWord w).enL = s.enL := rfl
@[simp] theorem pushWord_enR (w : BitVec 8) : (s.pushWord w).enR = s.enR := rfl
@[simp] theorem pushWord_diag (w : BitVec 8) : (s.pushWord w).diag = s.diag := rfl
@[simp] theorem resetBlock_cfg : s.resetBlock.cfg = s.cfg := rfl
@[simp] theorem resetBlock_time : s.resetBlock.time = s.time := rfl
@[simp] theorem resetBlock_stimuli : s.resetBlock.stimuli = s.stimuli := rfl
@[simp] theorem resetBlock_tsL : s.resetBlock.tsL = 0 := rfl
@[simp] theorem resetBlock_refL : s.resetBlock.refL = 0 := rfl
@[simp] theorem resetBlock_condL : s.resetBlock.condL = 0 := rfl
@[simp] theorem resetBlock_tsR : s.resetBlock.tsR = 0 := rfl
@[simp] theorem resetBlock_refR : s.resetBlock.refR = 0 := rfl
@[simp] theorem resetBlock_condR : s.resetBlock.condR = 0 := rfl
@[simp] theorem resetBlock_seqPhase : s.resetBlock.seqPhase = 0#4 := rfl
@[simp] theorem resetBlock_gateT0 : s.resetBlock.gateT0 = 0 := rfl
@[simp] theorem resetBlock_streakT0 : s.resetBlock.streakT0 = 0 := rfl
@[simp] theorem resetBlock_cause : s.resetBlock.cause = 0#2 := rfl
@[simp] theorem resetBlock_snapL : s.resetBlock.snapL = 0 := rfl
@[simp] theorem resetBlock_snapR : s.resetBlock.snapR = 0 := rfl
@[simp] theorem resetBlock_pwmLA : s.resetBlock.pwmLA = 0 := rfl
@[simp] theorem resetBlock_pwmLB : s.resetBlock.pwmLB = 0 := rfl
@[simp] theorem resetBlock_pwmRA : s.resetBlock.pwmRA = 0 := rfl
@[simp] theorem resetBlock_pwmRB : s.resetBlock.pwmRB = 0 := rfl
@[simp] theorem resetBlock_enL : s.resetBlock.enL = false := rfl
@[simp] theorem resetBlock_enR : s.resetBlock.enR = false := rfl
@[simp] theorem resetBlock_diag : s.resetBlock.diag = [] := rfl

/-! Accessors that look at the configuration and the clock only. -/

@[simp] theorem writeTs_now : (s.writeTs c v).now = s.now := by simp [State.now]
@[simp] theorem writeRef_now : (s.writeRef c v).now = s.now := by simp [State.now]
@[simp] theorem writeCond_now : (s.writeCond c v).now = s.now := by simp [State.now]
@[simp] theorem writeSnap_now : (s.writeSnap c v).now = s.now := by simp [State.now]
@[simp] theorem writeLine_now : (s.writeLine c d v).now = s.now := by simp [State.now]
@[simp] theorem writePhase_now : (s.writePhase p).now = s.now := by simp [State.now]
@[simp] theorem writeGateT0_now : (s.writeGateT0 v).now = s.now := by simp [State.now]
@[simp] theorem writeStreakT0_now : (s.writeStreakT0 v).now = s.now := by simp [State.now]
@[simp] theorem writeCause_now : (s.writeCause q).now = s.now := by simp [State.now]
@[simp] theorem writeEnables_now : (s.writeEnables b).now = s.now := by simp [State.now]
@[simp] theorem emit_now : (s.emit r).now = s.now := by simp [State.now]

end Sys2Proof.Machine
end

