-- ==== Sys2Proof/Laws/Word.lean ====
section
/-! SUPPORT. The modular arithmetic of 00_scope.md R13 and the fit of parameters. -/

namespace Sys2Proof

theorem wmod_lt (W n : Nat) : wmod W n < 2 ^ W := Nat.mod_lt _ (Nat.two_pow_pos W)

theorem wsub_lt (W : Nat) (a b : Nat) : wsub W a b < 2 ^ W := by
  have hp : (0 : Int) < ((2 ^ W : Nat) : Int) := by exact_mod_cast Nat.two_pow_pos W
  have h := Int.emod_lt_of_pos ((a : Int) - b) hp
  have h0 := Int.emod_nonneg ((a : Int) - b) hp.ne'
  exact (Int.toNat_lt h0).mpr h

/-- `wsub` is the integer difference modulo `2^W`. -/
theorem wsub_cast (W : Nat) (a b : Nat) : ((wsub W a b : Nat) : Int) = ((a : Int) - b) % ((2 ^ W : Nat) : Int) := by
  have hp : (0 : Int) < ((2 ^ W : Nat) : Int) := by exact_mod_cast Nat.two_pow_pos W
  exact Int.toNat_of_nonneg (Int.emod_nonneg _ hp.ne')

/-- Samples may be subtracted in place of the times they sample. -/
theorem wsub_wmod (W : Nat) (a b : Nat) : wsub W (wmod W a) (wmod W b) = wsub W a b := by
  unfold wsub wmod
  congr 1
  push_cast
  rw [← Int.emod_sub_emod, Int.emod_emod_of_dvd _ (dvd_refl _), Int.emod_sub_emod, Int.sub_emod_emod]

/-- The difference of two samples is the elapsed time modulo `2^W` (40_capture.md R130). -/
theorem wsub_samples (W a b : Nat) (h : b ≤ a) : wsub W (wmod W a) (wmod W b) = (a - b) % 2 ^ W := by
  rw [wsub_wmod]
  unfold wsub
  have : (a : Int) - b = ((a - b : Nat) : Int) := by omega
  rw [this]
  exact_mod_cast Int.toNat_natCast _

@[simp] theorem wsub_self (W : Nat) (a : Nat) : wsub W a a = 0 := by simp [wsub]

theorem fits_iff (W n : Nat) : fits W n = true ↔ n < 2 ^ W := by simp [fits]

end Sys2Proof
end

