-- ==== Sys2Proof/Laws/Ops.lean ====
section
/-! SUPPORT. For each shared operation, once, everything it does: the registers it writes and the rest kept. -/

namespace Sys2Proof.Machine

variable (s : State) (c : Channel) (d : Direction) (p : BitVec 4)

/-- `Cond(v)` is one of the three clamp values or `v` itself. -/
theorem cond_cases (k : Config) (v : Nat) : cond k v = k.neutral ∨ cond k v = k.absMax ∨ cond k v = k.absMin ∨ cond k v = v := by
  unfold cond
  split_ifs <;> simp

/-- The first matching rule of R160, as comparisons. -/
theorem cond_eq (k : Config) (v : Nat) : cond k v =
    if k.neutral < v + k.db ∧ v < k.neutral + k.db then k.neutral
    else if k.deadHigh < v ∧ v < k.absMax then k.absMax
    else if k.absMin < v ∧ v < k.deadLow then k.absMin
    else if v < k.absMin ∨ k.absMax < v then k.neutral
    else v := by
  simp only [cond, inDeadBand, inHighSaturation, inLowSaturation, outOfRange, Bool.and_eq_true, Bool.or_eq_true, decide_eq_true_eq]

/-- Where `div` has a meaning it is the integers' floor division (R15). -/
theorem floorDiv_eq {a : Int} {b : Nat} (ha : 0 ≤ a) (hb : 0 < b) : ((floorDiv a b : Nat) : Int) = a / b := by
  simp only [floorDiv, if_pos (And.intro ha hb)]
  push_cast
  rw [Int.toNat_of_nonneg ha]

theorem duty_le (k : Config) (v : Nat) : duty k v ≤ k.dutyMax := by
  unfold duty
  split_ifs
  · exact Nat.zero_le _
  · exact min_le_left _ _

@[simp] theorem opposite_opposite : d.opposite.opposite = d := by cases d <;> rfl

theorem opposite_ne : d.opposite ≠ d := by cases d <;> decide

/-- Conditioning writes `REF_c` and `COND_c` only. -/
theorem condition_eq (v : Nat) : s.condition c v = (s.writeRef c v).writeCond c (cond s.cfg v) := rfl

/-- The right channel's common computation, the difference taken from the clock sample (R125). -/
theorem rightCommon_eq : s.rightCommon = s.condition .R (s.sub s.cfg.corr (s.sub s.now s.tsR)) := rfl

theorem takeSnapshot_eq : s.takeSnapshot c p = (s.writeSnap c (s.condOf c)).writePhase p := rfl

theorem zeroOther_eq : s.zeroOther c p = (s.writeLine c (dir s.cfg (s.snap c)).opposite 0).writePhase p := rfl

theorem driveSelected_eq :
    s.driveSelected c p = (s.writeLine c (dir s.cfg (s.snap c)) (duty s.cfg (s.snap c))).writePhase p := rfl

theorem release_eq (q : BitVec 2) : s.release q = ((s.writeCause q).writeEnables true).writePhase phLReadL := rfl

/-- The verdict of an evaluation: which comparison held, pattern first (R144). -/
theorem gateVerdict_cases :
    (s.gateVerdict = causePattern ∧ gatePattern s.cfg s.snapL s.snapR = true ∧ s.cfg.gateWindow ≤ s.sub s.now s.streakT0) ∨
    (s.gateVerdict = causeTimeout ∧ s.cfg.gateTimeout ≤ s.sub s.now s.gateT0 ∧
      ¬ (gatePattern s.cfg s.snapL s.snapR = true ∧ s.cfg.gateWindow ≤ s.sub s.now s.streakT0)) ∨
    (s.gateVerdict = causeNone ∧ ¬ s.cfg.gateTimeout ≤ s.sub s.now s.gateT0 ∧
      ¬ (gatePattern s.cfg s.snapL s.snapR = true ∧ s.cfg.gateWindow ≤ s.sub s.now s.streakT0)) := by
  by_cases h : gatePattern s.cfg s.snapL s.snapR = true ∧ s.cfg.gateWindow ≤ s.sub s.now s.streakT0
  · exact .inl ⟨by simp [State.gateVerdict, h.1, h.2], h.1, h.2⟩
  · by_cases h2 : s.cfg.gateTimeout ≤ s.sub s.now s.gateT0
    · refine .inr (.inl ⟨?_, h2, h⟩)
      simp only [State.gateVerdict, Bool.and_eq_true, decide_eq_true_eq, if_neg h, if_pos h2]
    · refine .inr (.inr ⟨?_, h2, h⟩)
      simp only [State.gateVerdict, Bool.and_eq_true, decide_eq_true_eq, if_neg h, if_neg h2]

/-- What an evaluation records: one record, and the streak origin when the pattern is false (R144, R150). -/
theorem gateObserve_cases :
    (gatePattern s.cfg s.snapL s.snapR = true ∧ s.gateObserve = s.emit (.gateStatus .INIT s.snapL s.snapR)) ∨
    (gatePattern s.cfg s.snapL s.snapR = false ∧
      s.gateObserve = (s.emit (.gateStatus .ERROR s.snapL s.snapR)).writeStreakT0 s.now) := by
  cases h : gatePattern s.cfg s.snapL s.snapR
  · exact .inr ⟨rfl, by simp [State.gateObserve, gateStatusOf, h]⟩
  · exact .inl ⟨rfl, by simp [State.gateObserve, gateStatusOf, h]⟩

end Sys2Proof.Machine
end

