-- ==== Sys2Proof/Laws/Exec.lean ====
section
/-! SUPPORT. For each operation, its meaning as register writes. -/

namespace Sys2Proof.Machine

variable (s : State)

theorem exec_edgeRiseL : exec .edgeRiseL s = .next (s.writeTs .L s.now) := rfl

theorem exec_edgeFallL : exec .edgeFallL s =
    .next ((s.writeRef .L (s.sub s.now s.tsL)).writeCond .L (cond s.cfg (s.sub s.now s.tsL))) := rfl

/-- The right rise measures 0, so the reading is `CORR` of W bits (R126). -/
theorem exec_edgeRiseR : exec .edgeRiseR s =
    .next ((((s.writeTs .R s.now).writeRef .R (s.sub s.cfg.corr 0)).writeCond .R (cond s.cfg (s.sub s.cfg.corr 0)))) := by
  have h : (s.writeTs .R s.now).sub (s.writeTs .R s.now).cfg.corr
      ((s.writeTs .R s.now).sub (s.writeTs .R s.now).now (s.writeTs .R s.now).tsR) = s.sub s.cfg.corr 0 := by
    simp [State.sub]
  simp only [exec, execEdgeRiseR, rightCommon_eq, condition_eq, h]
  rfl

theorem exec_edgeFallR : exec .edgeFallR s =
    .next ((s.writeRef .R (s.sub s.cfg.corr (s.sub s.now s.tsR))).writeCond .R
      (cond s.cfg (s.sub s.cfg.corr (s.sub s.now s.tsR)))) := rfl

theorem exec_reset : exec .reset s = .next (State.initial s.cfg s.time s.stimuli) := rfl

theorem exec_gateStart : exec .gateStart s =
    .next (((s.writeGateT0 s.now).writeStreakT0 s.now).writePhase phGReadL) := rfl

theorem exec_gateReadL : exec .gateReadL s = .next ((s.writeSnap .L s.condL).writePhase phGReadR) := rfl

theorem exec_gateReadR : exec .gateReadR s = .next ((s.writeSnap .R s.condR).writePhase phGEval) := rfl

/-- GATE_EVAL without a release. -/
theorem exec_gateEval_none (h : s.gateVerdict = causeNone) :
    exec .gateEval s = .next (s.gateObserve.writePhase phGReadL) := by
  simp only [exec, execGateEval, if_pos h]

/-- GATE_EVAL with a release. -/
theorem exec_gateEval_release (h : s.gateVerdict ≠ causeNone) :
    exec .gateEval s = .next (((s.gateObserve.writeCause s.gateVerdict).writeEnables true).writePhase phLReadL) := by
  simp only [exec, execGateEval, if_neg h, release_eq]

theorem exec_loopReadL : exec .loopReadL s = .next ((s.writeSnap .L s.condL).writePhase phLReadR) := rfl

theorem exec_loopReadR : exec .loopReadR s = .next ((s.writeSnap .R s.condR).writePhase phZeroL) := rfl

theorem exec_mapZeroL : exec .mapZeroL s =
    .next ((s.writeLine .L (dir s.cfg s.snapL).opposite 0).writePhase phDriveL) := rfl

theorem exec_mapDriveL : exec .mapDriveL s =
    .next ((s.writeLine .L (dir s.cfg s.snapL) (duty s.cfg s.snapL)).writePhase phZeroR) := rfl

theorem exec_mapZeroR : exec .mapZeroR s =
    .next ((s.writeLine .R (dir s.cfg s.snapR).opposite 0).writePhase phDriveR) := rfl

theorem exec_mapDriveR : exec .mapDriveR s =
    .next ((s.writeLine .R (dir s.cfg s.snapR) (duty s.cfg s.snapR)).writePhase phLDiag) := rfl

theorem exec_loopDiag : exec .loopDiag s =
    .next ((s.emit (.loopReport s.snapL s.snapR)).writePhase phLReadL) := rfl

end Sys2Proof.Machine
end

