-- ==== Sys2Proof/Laws/PerInstr.lean ====
section
/-! SUPPORT. The per-instruction family: the code of an operation lies in its format's space, its two upper
bits as R91 says (30_encoding.md R91 to R95, R102). -/

namespace Sys2Proof.Laws.FormatOfCode

/-- The format that the code's bits choose is the format of the operation's row. -/
def Statement (i : Instr) : Prop := (encode i).format = some i.format

theorem edgeFallL : Statement .edgeFallL := rfl
theorem edgeRiseL : Statement .edgeRiseL := rfl
theorem edgeFallR : Statement .edgeFallR := rfl
theorem edgeRiseR : Statement .edgeRiseR := rfl
theorem seqStep : Statement .seqStep := rfl
theorem reset : Statement .reset := rfl
theorem gateStart : Statement .gateStart := rfl
theorem gateReadL : Statement .gateReadL := rfl
theorem gateReadR : Statement .gateReadR := rfl
theorem gateEval : Statement .gateEval := rfl
theorem loopReadL : Statement .loopReadL := rfl
theorem loopReadR : Statement .loopReadR := rfl
theorem mapZeroL : Statement .mapZeroL := rfl
theorem mapDriveL : Statement .mapDriveL := rfl
theorem mapZeroR : Statement .mapZeroR := rfl
theorem mapDriveR : Statement .mapDriveR := rfl
theorem loopDiag : Statement .loopDiag := rfl

end Sys2Proof.Laws.FormatOfCode
end

