-- ==== Sys2Proof/Laws/Step.lean ====
section
/-! SUPPORT. What a fetch and a step can do, said once, and runs of several steps. -/

namespace Sys2Proof.Machine

/-- A stimulus is taken exactly when its time is not past, its word decodes and its assertion holds. -/
theorem take_run_iff (s t : State) (x : Stimulus) (rest : List Stimulus) (i : Instr) :
    s.take x rest = .run i t ↔
      s.time ≤ x.t ∧ decodeByte x.word = .ok i ∧ Stimulus.holds x s = true ∧ t = s.advance x rest := by
  unfold State.take
  by_cases h : x.t < s.time
  · simp [h, Nat.not_le.mpr h]
  · rw [if_neg h]
    cases hd : decodeByte x.word with
    | error e => simp
    | ok j =>
      by_cases ha : Stimulus.holds x s = true
      · simp only [ha, if_true, Fetched.run.injEq, Except.ok.injEq, true_and]
        exact ⟨fun ⟨a, b⟩ => ⟨Nat.not_lt.mp h, a, b.symm⟩, fun ⟨_, a, b⟩ => ⟨a, b.symm⟩⟩
      · simp [ha]

/-- Everything a step that answers a next state can be: no stimulus is left and nothing changes, or the next
stimulus is performed by `exec` at its time. -/
theorem step_cases {s t : State} (h : step s = .next t) :
    (s.stimuli = [] ∧ t = s) ∨
    ∃ x rest i, s.stimuli = x :: rest ∧ s.time ≤ x.t ∧ decodeByte x.word = .ok i ∧ Stimulus.holds x s = true ∧
      exec i (s.advance x rest) = .next t := by
  unfold step State.fetch at h
  cases hs : s.stimuli with
  | nil =>
    rw [hs] at h
    exact .inl ⟨rfl, (Host.Outcome.next.inj h).symm⟩
  | cons x rest =>
    rw [hs] at h
    dsimp only at h
    cases hf : s.take x rest with
    | idle => exact absurd hf (by unfold State.take; split_ifs <;> (try split) <;> simp)
    | refuse r => rw [hf] at h; cases h
    | run i u =>
      rw [hf] at h
      obtain ⟨h1, h2, h3, rfl⟩ := (take_run_iff s u x rest i).mp hf
      exact .inr ⟨x, rest, i, rfl, h1, h2, h3, h⟩

/-- A stimulus whose time, word and assertion are in order is performed. -/
theorem step_run {s : State} {x : Stimulus} {rest : List Stimulus} {i : Instr} (hs : s.stimuli = x :: rest)
    (ht : s.time ≤ x.t) (hd : decodeByte x.word = .ok i) (ha : Stimulus.holds x s = true) :
    step s = exec i (s.advance x rest) := by
  have := (take_run_iff s (s.advance x rest) x rest i).mpr ⟨ht, hd, ha, rfl⟩
  simp only [step, State.fetch, hs, this]

/-- What the phase selects is what its code decodes to (R95). -/
theorem selected_eq_some (s : State) (m : Instr) : s.selected = some m ↔ decodePhase s.seqPhase = .ok m := by
  unfold State.selected
  generalize decodePhase s.seqPhase = d
  cases d <;> simp

/-- An assertion holds when the phase selects the micro-operation it names (R100). -/
theorem holds_iff (x : Stimulus) (s : State) :
    Stimulus.holds x s = true ↔ ∀ m, x.expect = some m → decodePhase s.seqPhase = .ok m := by
  unfold Stimulus.holds
  cases x.expect with
  | none => simp
  | some m => simp [selected_eq_some]

@[simp] theorem holds_plain (s : State) (x : Stimulus) (h : x.expect = none) : Stimulus.holds x s = true := by
  simp [Stimulus.holds, h]

/-- The six valid words, and nothing else, decode (R97). -/
theorem decodeByte_cases {w : BitVec 8} {i : Instr} (h : decodeByte w = .ok i) :
    (w = 0x00#8 ∧ i = .edgeFallL) ∨ (w = 0x01#8 ∧ i = .edgeRiseL) ∨ (w = 0x02#8 ∧ i = .edgeFallR) ∨
    (w = 0x03#8 ∧ i = .edgeRiseR) ∨ (w = 0x40#8 ∧ i = .seqStep) ∨ (w = 0x80#8 ∧ i = .reset) := by
  revert h
  revert w
  cases i <;> decide

/-- A phase that selects a micro-operation is its code (R95). -/
theorem seqStep_cases {s t : State} (h : exec .seqStep s = .next t) :
    (s.seqPhase = phGStart ∧ exec .gateStart s = .next t) ∨ (s.seqPhase = phGReadL ∧ exec .gateReadL s = .next t) ∨
    (s.seqPhase = phGReadR ∧ exec .gateReadR s = .next t) ∨ (s.seqPhase = phGEval ∧ exec .gateEval s = .next t) ∨
    (s.seqPhase = phLReadL ∧ exec .loopReadL s = .next t) ∨ (s.seqPhase = phLReadR ∧ exec .loopReadR s = .next t) ∨
    (s.seqPhase = phZeroL ∧ exec .mapZeroL s = .next t) ∨ (s.seqPhase = phDriveL ∧ exec .mapDriveL s = .next t) ∨
    (s.seqPhase = phZeroR ∧ exec .mapZeroR s = .next t) ∨ (s.seqPhase = phDriveR ∧ exec .mapDriveR s = .next t) ∨
    (s.seqPhase = phLDiag ∧ exec .loopDiag s = .next t) := by
  have key : ∀ n (p : BitVec 4), p.toNat = n → p = BitVec.ofNat 4 n := fun n p hp => by rw [← hp]; simp
  simp only [exec, execSeqStep] at h
  split at h <;> first | (rename_i hp; have hq := key _ _ hp; simp only [exec]; simp [hq, h]) | cases h

/-- Every operation leaves the parameters, the time and the stimuli to come as they are. -/
theorem exec_env {i : Instr} {s t : State} (h : exec i s = .next t) : SameEnv s t := by
  have eval : ∀ t, exec .gateEval s = .next t → SameEnv s t := by
    intro t h
    by_cases hv : s.gateVerdict = causeNone
    · rw [exec_gateEval_none s hv] at h
      rcases gateObserve_cases s with ⟨-, ho⟩ | ⟨-, ho⟩ <;> (rw [ho] at h; cases h; simp [SameEnv])
    · rw [exec_gateEval_release s hv] at h
      rcases gateObserve_cases s with ⟨-, ho⟩ | ⟨-, ho⟩ <;> (rw [ho] at h; cases h; simp [SameEnv])
  have key : ∀ i, i ≠ .seqStep → ∀ t, exec i s = .next t → SameEnv s t := by
    intro i hi t h
    cases i
    case seqStep => exact absurd rfl hi
    case gateEval => exact eval t h
    case mapZeroL => cases h; simp [SameEnv, zeroOther_eq]
    case mapZeroR => cases h; simp [SameEnv, zeroOther_eq]
    case mapDriveL => cases h; simp [SameEnv, driveSelected_eq]
    case mapDriveR => cases h; simp [SameEnv, driveSelected_eq]
    all_goals (cases h; exact ⟨rfl, rfl, rfl⟩)
  by_cases hi : i = .seqStep
  · subst hi
    rcases seqStep_cases h with h | h | h | h | h | h | h | h | h | h | h <;> exact key _ (by decide) _ h.2
  · exact key i hi t h

/-- A SEQ_STEP in a phase that is not reserved answers a next state. -/
theorem exec_seqStep_next {s : State} (h : s.seqPhase.toNat ≤ 10) : ∃ t, exec .seqStep s = .next t := by
  interval_cases hn : s.seqPhase.toNat <;> simp only [exec, execSeqStep, hn]
  all_goals first | exact ⟨_, rfl⟩ | (simp only [execGateEval]; split_ifs <;> exact ⟨_, rfl⟩)

/-- In the loop a SEQ_STEP stays in the loop. -/
theorem seqStep_loop {s t : State} (h : exec .seqStep s = .next t) (h4 : 4 ≤ s.seqPhase.toNat) :
    4 ≤ t.seqPhase.toNat ∧ t.seqPhase.toNat ≤ 10 := by
  rcases seqStep_cases h with h | h | h | h | h | h | h | h | h | h | h <;> obtain ⟨hp, h⟩ := h
  case inl => simp [hp] at h4
  case inr.inl => simp [hp] at h4
  case inr.inr.inl => simp [hp] at h4
  case inr.inr.inr.inl => simp [hp] at h4
  all_goals (cases h; simp [takeSnapshot_eq, zeroOther_eq, driveSelected_eq])

theorem runSteps_add (m n : Nat) (s : State) :
    runSteps (m + n) s = (match runSteps m s with
      | .next t => runSteps n t
      | .fault r => .fault r
      | .refused r => .refused r) := by
  induction m generalizing s with
  | zero => simp [runSteps]
  | succ m ih =>
    rw [Nat.succ_add]
    simp only [runSteps]
    cases step s with
    | next t => exact ih t
    | fault r => rfl
    | refused r => rfl

theorem runSteps_succ {k : Nat} {s t : State} (h : runSteps (k + 1) s = .next t) :
    ∃ u, step s = .next u ∧ runSteps k u = .next t := by
  simp only [runSteps] at h
  cases hs : step s with
  | next u => exact ⟨u, rfl, by rwa [hs] at h⟩
  | fault r => rw [hs] at h; cases h
  | refused r => rw [hs] at h; cases h

theorem runSteps_split {m n : Nat} {s t : State} (h : runSteps (m + n) s = .next t) :
    ∃ u, runSteps m s = .next u ∧ runSteps n u = .next t := by
  rw [runSteps_add] at h
  cases hu : runSteps m s with
  | next u => exact ⟨u, rfl, by rwa [hu] at h⟩
  | fault r => rw [hu] at h; cases h
  | refused r => rw [hu] at h; cases h

/-- A property every step keeps holds at the end of every run: the induction, once. -/
theorem runSteps_induct {P : State → Prop} (hstep : ∀ s t, P s → step s = .next t → P t) {k : Nat} {s t : State}
    (hs : P s) (h : runSteps k s = .next t) : P t := by
  induction k generalizing s with
  | zero => cases h; exact hs
  | succ k ih =>
    obtain ⟨u, hu, ht⟩ := runSteps_succ h
    exact ih (hstep s u hs hu) ht

/-- The host's runs are these runs. -/
theorem core_run_eq (k : Nat) (s : State) : Sys2Proof.core.run k s = runSteps k s := by
  induction k generalizing s with
  | zero => rfl
  | succ k ih =>
    have hc : Sys2Proof.core.step s = step s := rfl
    cases hs : step s with
    | next t => simp only [Host.Core.run, runSteps, hc, hs]; exact ih t
    | fault r => simp only [Host.Core.run, runSteps, hc, hs]; rfl
    | refused r => simp only [Host.Core.run, runSteps, hc, hs]; rfl

end Sys2Proof.Machine
end

