-- ==== Sys2Proof/Laws/Run.lean ====
section
/-! SUPPORT. Infinite runs: what a step of one does, the two inductions along one, and how its finite prefixes are
runs of a stream that the state holds. -/

namespace Sys2Proof.Machine

variable (s : State) (x : Stimulus)

/-! `supply` -/

@[simp] theorem supply_cfg : (s.supply x).cfg = s.cfg := rfl
@[simp] theorem supply_time : (s.supply x).time = s.time := rfl
@[simp] theorem supply_stimuli : (s.supply x).stimuli = [x] := rfl
@[simp] theorem supply_tsL : (s.supply x).tsL = s.tsL := rfl
@[simp] theorem supply_refL : (s.supply x).refL = s.refL := rfl
@[simp] theorem supply_condL : (s.supply x).condL = s.condL := rfl
@[simp] theorem supply_tsR : (s.supply x).tsR = s.tsR := rfl
@[simp] theorem supply_refR : (s.supply x).refR = s.refR := rfl
@[simp] theorem supply_condR : (s.supply x).condR = s.condR := rfl
@[simp] theorem supply_seqPhase : (s.supply x).seqPhase = s.seqPhase := rfl
@[simp] theorem supply_gateT0 : (s.supply x).gateT0 = s.gateT0 := rfl
@[simp] theorem supply_streakT0 : (s.supply x).streakT0 = s.streakT0 := rfl
@[simp] theorem supply_cause : (s.supply x).cause = s.cause := rfl
@[simp] theorem supply_snapL : (s.supply x).snapL = s.snapL := rfl
@[simp] theorem supply_snapR : (s.supply x).snapR = s.snapR := rfl
@[simp] theorem supply_pwmLA : (s.supply x).pwmLA = s.pwmLA := rfl
@[simp] theorem supply_pwmLB : (s.supply x).pwmLB = s.pwmLB := rfl
@[simp] theorem supply_pwmRA : (s.supply x).pwmRA = s.pwmRA := rfl
@[simp] theorem supply_pwmRB : (s.supply x).pwmRB = s.pwmRB := rfl
@[simp] theorem supply_enL : (s.supply x).enL = s.enL := rfl
@[simp] theorem supply_enR : (s.supply x).enR = s.enR := rfl
@[simp] theorem supply_diag : (s.supply x).diag = s.diag := rfl

variable {s x}

/-- A step of an infinite run performs the stimulus supplied to it. -/
theorem step_supply_cases {t : State} (h : step (s.supply x) = .next t) :
    ∃ i, s.time ≤ x.t ∧ decodeByte x.word = .ok i ∧ Stimulus.holds x s = true ∧ exec i (s.advance x []) = .next t := by
  rcases step_cases h with ⟨h0, -⟩ | ⟨y, rest, i, hs, ht, hd, ha, he⟩
  · cases h0
  · cases hs
    exact ⟨i, ht, hd, ha, he⟩

/-- A stimulus whose time, word and assertion are in order is performed when supplied. -/
theorem step_supply {i : Instr} (ht : s.time ≤ x.t) (hd : decodeByte x.word = .ok i) (ha : Stimulus.holds x s = true) :
    step (s.supply x) = exec i (s.advance x []) :=
  step_run rfl ht hd ha

variable {env : Nat → Stimulus} {ρ : Nat → State}

/-- What holds at the start of an infinite run and is kept by each of its steps holds all along it. -/
theorem IsRun.induct (h : IsRun env ρ) {I : Nat → State → Prop} (h0 : I 0 (ρ 0))
    (hstep : ∀ n u t, I n u → step (u.supply (env n)) = .next t → I (n + 1) t) (n : Nat) : I n (ρ n) := by
  induction n with
  | zero => exact h0
  | succ n ih => exact hstep n _ _ ih (h n)

/-- Where an invariant lets every stimulus of the environment be performed, the infinite run exists. -/
theorem exists_isRun {I : Nat → State → Prop} (h0 : I 0 s)
    (hstep : ∀ n u, I n u → ∃ t, step (u.supply (env n)) = .next t ∧ I (n + 1) t) :
    ∃ ρ, ρ 0 = s ∧ IsRun env ρ ∧ ∀ n, I n (ρ n) := by
  choose f hf hI using hstep
  let run : (n : Nat) → (u : State) ×' I n u := fun n => Nat.rec ⟨s, h0⟩ (fun n p => ⟨f n p.1 p.2, hI n p.1 p.2⟩) n
  exact ⟨fun n => (run n).1, rfl, fun n => hf n _ (run n).2, fun n => (run n).2⟩

/-- No operation looks at the stimuli to come: with other ones in their place its result is the same. -/
theorem exec_stimuli {i : Instr} {t : State} (h : exec i s = .next t) (xs : List Stimulus) :
    exec i { s with stimuli := xs } = .next { t with stimuli := xs } := by
  have line : ∀ (c : Channel) (d : Direction) (v : Nat) (p : BitVec 4),
      (({ s with stimuli := xs } : State).writeLine c d v).writePhase p =
        { (s.writeLine c d v).writePhase p with stimuli := xs } := by
    intro c d v p
    cases c <;> cases d <;> rfl
  have eval : ∀ t, exec .gateEval s = .next t →
      exec .gateEval { s with stimuli := xs } = .next { t with stimuli := xs } := by
    intro t h
    have hv : ({ s with stimuli := xs } : State).gateVerdict = s.gateVerdict := rfl
    simp only [exec, execGateEval, hv, State.gateObserve] at h ⊢
    split_ifs at h ⊢ <;> (cases h; rfl)
  have key : ∀ i, i ≠ .seqStep → ∀ t, exec i s = .next t →
      exec i { s with stimuli := xs } = .next { t with stimuli := xs } := by
    intro i hi t h
    cases i
    case seqStep => exact absurd rfl hi
    case gateEval => exact eval t h
    case mapZeroL => cases h; exact congrArg _ (line .L _ _ _)
    case mapDriveL => cases h; exact congrArg _ (line .L _ _ _)
    case mapZeroR => cases h; exact congrArg _ (line .R _ _ _)
    case mapDriveR => cases h; exact congrArg _ (line .R _ _ _)
    all_goals (cases h; rfl)
  by_cases hi : i = .seqStep
  · subst hi
    rcases seqStep_cases h with h | h | h | h | h | h | h | h | h | h | h <;>
    · rw [← key _ (by decide) _ h.2]
      simp [exec, execSeqStep, h.1]
  · exact key i hi t h

/-- The first `k` steps of an infinite run are the run of a stream that begins with its first `k` stimuli. -/
theorem IsRun.runSteps_firstStimuli (h : IsRun env ρ) (k : Nat) (rest : List Stimulus) :
    runSteps k { ρ 0 with stimuli := firstStimuli env k ++ rest } = .next { ρ k with stimuli := rest } := by
  induction k generalizing rest with
  | zero => rfl
  | succ k ih =>
    obtain ⟨i, ht, hd, ha, he⟩ := step_supply_cases (h k)
    have hs : step { ρ k with stimuli := env k :: rest } = .next { ρ (k + 1) with stimuli := rest } :=
      (step_run (s := { ρ k with stimuli := env k :: rest }) rfl ht hd ha).trans (exec_stimuli he rest)
    rw [runSteps_add, firstStimuli, List.append_assoc, ih]
    simp only [List.singleton_append, runSteps, hs]

end Sys2Proof.Machine
end

