-- ==== Sys2Proof/Tests/Slice0.lean ====
section
/-! SUPPORT. Tests. The expected results of the step and encoding tests come from 95_test_vectors.md (its row ids
stand in the names: E = TV-E, G = TV-G, D = TV-MAP, L = TV-L, S = TV-S) and from the tables of 30_encoding.md.
The `witness_…` theorems show, for each statement with hypotheses, a state and operands that meet all of them. -/

namespace Sys2Proof.Tests

open Sys2Proof Sys2Proof.Machine

/-- The outcome is a next state with the property `p`. -/
def nextHas (o : Host.Outcome State Fault Refusal) (p : State → Bool) : Bool :=
  match o with
  | .next t => p t
  | .fault _ => false
  | .refused _ => false

/-- The outcome is the refusal `r`. -/
def refusedWith (o : Host.Outcome State Fault Refusal) (r : Refusal) : Bool :=
  match o with
  | .next _ => false
  | .fault _ => false
  | .refused q => decide (q = r)

/-- A stimulus without assertion. -/
def stim (w : BitVec 8) (t : Nat) : Stimulus := ⟨w, t, none⟩

/-- The state after reset at the time `T`. -/
def resetAt (T : Nat) : State := { State.reset with time := T }

/-- The state after reset in the phase `p`. -/
def inPhase (p : BitVec 4) : State := { State.reset with seqPhase := p }

/-! ### Well-formedness refuses ill-formed terms -/

theorem test_wf_default : Config.default.wf = true := by decide
theorem test_wf_neutral_too_wide : ({ neutral := 2 ^ 32 } : Config).wf = false := by decide
theorem test_wf_db_too_wide : ({ db := 2 ^ 32 } : Config).wf = false := by decide
theorem test_wf_deadHigh_too_wide : ({ deadHigh := 2 ^ 32 } : Config).wf = false := by decide
theorem test_wf_absMax_too_wide : ({ absMax := 2 ^ 32 } : Config).wf = false := by decide
theorem test_wf_absMin_too_wide : ({ absMin := 2 ^ 32 } : Config).wf = false := by decide
theorem test_wf_deadLow_too_wide : ({ deadLow := 2 ^ 32 } : Config).wf = false := by decide
theorem test_wf_corr_too_wide : ({ corr := 2 ^ 32 } : Config).wf = false := by decide
theorem test_wf_gateLLt_too_wide : ({ gateLLt := 2 ^ 32 } : Config).wf = false := by decide
theorem test_wf_gateRGt_too_wide : ({ gateRGt := 2 ^ 32 } : Config).wf = false := by decide
theorem test_wf_gateWindow_too_wide : ({ gateWindow := 2 ^ 32 } : Config).wf = false := by decide
theorem test_wf_gateTimeout_too_wide : ({ gateTimeout := 2 ^ 32 } : Config).wf = false := by decide
theorem test_wf_span_zero : ({ span := 0 } : Config).wf = false := by decide
theorem test_wf_dutyMax_too_wide : ({ dutyMax := 256 } : Config).wf = false := by decide
theorem test_wf_narrow_clock : ({ clkBits := 13 } : Config).wf = false := by decide
theorem test_wf_assertion_of_edge : (⟨0x40#8, 0, some .edgeRiseL⟩ : Stimulus).wf = false := by decide
theorem test_wf_assertion_on_reset_word : (⟨0x80#8, 0, some .gateEval⟩ : Stimulus).wf = false := by decide
theorem test_wf_stream_time_back : streamWf 0 [stim 0x40 5, stim 0x40 4] = false := by decide
theorem test_wf_stream_before_now : streamWf 6 [stim 0x40 5] = false := by decide
theorem test_wf_directive_not_micro : (Directive.seqMicro .seqStep).wf = false := by decide
theorem test_wf_script_time_back : scriptWf [⟨5, .seq⟩, ⟨4, .seq⟩] = false := by decide
theorem test_wf_script_bad_directive : scriptWf [⟨5, .seqMicro .reset⟩] = false := by decide

/-! ### Decoding: words written out from 30_encoding.md -/

theorem test_S1_edgeFallL : decodeByte 0b00000000#8 = .ok .edgeFallL := by decide
theorem test_S2_edgeRiseL : decodeByte 0b00000001#8 = .ok .edgeRiseL := by decide
theorem test_S3_edgeFallR : decodeByte 0b00000010#8 = .ok .edgeFallR := by decide
theorem test_S4_edgeRiseR : decodeByte 0b00000011#8 = .ok .edgeRiseR := by decide
theorem test_S5_seqStep : decodeByte 0b01000000#8 = .ok .seqStep := by decide
theorem test_S6_reset : decodeByte 0b10000000#8 = .ok .reset := by decide
theorem test_S7_reserved : ∀ w ∈ [0x04#8, 0x3F#8, 0x41#8, 0x7F#8, 0x81#8, 0xBF#8, 0xC0#8, 0xFF#8],
    decodeByte w = .error .reservedWord := by decide
theorem test_phase_gateStart : decodePhase 0b0000#4 = .ok .gateStart := by decide
theorem test_phase_gateReadL : decodePhase 0b0001#4 = .ok .gateReadL := by decide
theorem test_phase_gateReadR : decodePhase 0b0010#4 = .ok .gateReadR := by decide
theorem test_phase_gateEval : decodePhase 0b0011#4 = .ok .gateEval := by decide
theorem test_phase_loopReadL : decodePhase 0b0100#4 = .ok .loopReadL := by decide
theorem test_phase_loopReadR : decodePhase 0b0101#4 = .ok .loopReadR := by decide
theorem test_phase_mapZeroL : decodePhase 0b0110#4 = .ok .mapZeroL := by decide
theorem test_phase_mapDriveL : decodePhase 0b0111#4 = .ok .mapDriveL := by decide
theorem test_phase_mapZeroR : decodePhase 0b1000#4 = .ok .mapZeroR := by decide
theorem test_phase_mapDriveR : decodePhase 0b1001#4 = .ok .mapDriveR := by decide
theorem test_phase_loopDiag : decodePhase 0b1010#4 = .ok .loopDiag := by decide
theorem test_phase_reserved : ∀ p ∈ [11#4, 12#4, 13#4, 14#4, 15#4], decodePhase p = .error .reservedPhase := by decide
theorem test_valid_bytes_count :
    ((List.range 256).filter fun n => match decodeByte (BitVec.ofNat 8 n) with
      | .ok _ => true
      | .error _ => false).length = 6 := by decide

/-! ### The host's table words (log entries 11 and 12) -/

theorem test_table_stimulus_rows : [decodeTableWord 8 0x00, decodeTableWord 8 0x01, decodeTableWord 8 0x02,
    decodeTableWord 8 0x03, decodeTableWord 8 0x40, decodeTableWord 8 0x80] =
    [some .edgeFallL, some .edgeRiseL, some .edgeFallR, some .edgeRiseR, some .seqStep, some .reset] := by decide
theorem test_table_phase_rows : (List.range 11).map (decodeTableWord 4) = microOps.map some := by decide
theorem test_table_refused : [decodeTableWord 4 11, decodeTableWord 8 0xFF, decodeTableWord 8 256] = [none, none, none] := by
  decide
theorem test_fetchWord_edge : nextHas (step (State.reset.withFetchWord 8 0x03)) (fun t => t.refR == 3000) = true := by decide
theorem test_fetchWord_phase :
    nextHas (step (State.reset.withFetchWord 4 10)) (fun t => t.diag == [.loopReport 0 0] && t.seqPhase == 4#4) = true := by
  decide

/-! ### Capture: TV-E -/

theorem test_E1_riseL : nextHas (exec .edgeRiseL (resetAt 5000))
    (fun t => t.tsL == 5000 && t.refL == 0 && t.condL == 0) = true := by decide
theorem test_E3_fallL_after_fall : nextHas (exec .edgeFallL { resetAt 8000 with tsL := 5000, condL := 1600 })
    (fun t => t.refL == 3000 && t.condL == 1500 && t.tsL == 5000) = true := by decide
theorem test_E7_fallL_across_wrap : nextHas (exec .edgeFallL { resetAt 4294968596 with tsL := 4294967096 })
    (fun t => t.refL == 1500 && t.condL == 1500) = true := by decide
theorem test_E9_riseR : nextHas (exec .edgeRiseR { resetAt 5000 with condR := 2000 })
    (fun t => t.tsR == 5000 && t.refR == 3000 && t.condR == 1500) = true := by decide
theorem test_E12_fallR_beyond_corr : nextHas (exec .edgeFallR { resetAt 10000 with tsR := 5000 })
    (fun t => t.refR == 4294965296 && t.condR == 1500 && t.tsR == 5000) = true := by decide
theorem test_E15_fallR_across_wrap : nextHas (exec .edgeFallR { resetAt 4294968296 with tsR := 4294967096 })
    (fun t => t.refR == 1800 && t.condR == 2000) = true := by decide

/-- TV-C, the column `Cond(v)`. -/
theorem test_TVC_cond : [0, 999, 1000, 1001, 1149, 1150, 1449, 1450, 1451, 1549, 1550, 1775, 1776, 1999, 2000, 2001,
      4294967295].map (cond Config.default) =
    [1500, 1500, 1000, 1000, 1000, 1150, 1449, 1450, 1500, 1500, 1550, 1775, 2000, 2000, 2000, 1500, 1500] := by decide
/-- TV-M, the column `Duty(v)`. -/
theorem test_TVM_duty : [0, 999, 1000, 1001, 1149, 1400, 1449, 1499, 1500, 1501, 1502, 1775, 1900, 1999, 2000,
      2001].map (duty Config.default) =
    [255, 255, 255, 254, 179, 51, 26, 0, 0, 0, 1, 140, 204, 254, 255, 255] := by decide

/-! ### The gate: TV-G -/

/-- Phase 3, the gate started at 0, with the snapshots `l` and `r`, at the time `T`. -/
def atEval (T l r : Nat) : State := { resetAt T with seqPhase := 3#4, snapL := l, snapR := r }

theorem test_G1_gateStart : nextHas (exec .gateStart (resetAt 2000))
    (fun t => t.gateT0 == 2000 && t.streakT0 == 2000 && t.seqPhase == 1#4) = true := by decide
theorem test_G2_gateReadL : nextHas (exec .gateReadL { inPhase 1#4 with condL := 1000, condR := 7 })
    (fun t => t.snapL == 1000 && t.snapR == 0 && t.seqPhase == 2#4) = true := by decide
theorem test_G3_gateReadR : nextHas (exec .gateReadR { inPhase 2#4 with condR := 2000, condL := 7 })
    (fun t => t.snapR == 2000 && t.snapL == 0 && t.seqPhase == 3#4) = true := by decide
theorem test_G12_gateEval_across_wrap :
    nextHas (exec .gateEval { atEval 4294970000 1600 0 with gateT0 := 4294960000, streakT0 := 4294960000 })
    (fun t => t.diag == [.gateStatus .ERROR 1600 0] && t.streakT0 == 2704 && t.cause == 2#2 && t.seqPhase == 4#4) = true := by
  decide
theorem test_G15_pattern_before_timeout :
    nextHas (exec .gateEval { atEval 4000 1000 2000 with cfg := { gateWindow := 4000 } })
      (fun t => t.diag == [.gateStatus .INIT 1000 2000] && t.streakT0 == 0 && t.cause == 1#2 && t.seqPhase == 4#4) = true := by
  decide

/-! ### The mapper and the loop: TV-MAP, TV-L -/

theorem test_D1_mapZeroL : nextHas (exec .mapZeroL { inPhase 6#4 with snapL := 1900, pwmLA := 9, pwmLB := 120 })
    (fun t => t.pwmLB == 0 && t.pwmLA == 9 && t.seqPhase == 7#4) = true := by decide
theorem test_D2_mapDriveL : nextHas (exec .mapDriveL { inPhase 7#4 with snapL := 1900 })
    (fun t => t.pwmLA == 204 && t.pwmLB == 0 && t.seqPhase == 8#4) = true := by decide
theorem test_D4_mapDriveL_never_conditioned : nextHas (exec .mapDriveL (inPhase 7#4))
    (fun t => t.pwmLA == 0 && t.pwmLB == 255) = true := by decide
theorem test_D5_mapZeroR : nextHas (exec .mapZeroR { inPhase 8#4 with snapR := 1000, pwmRA := 255, pwmRB := 9 })
    (fun t => t.pwmRA == 0 && t.pwmRB == 9 && t.seqPhase == 9#4) = true := by decide
theorem test_D6_mapDriveR : nextHas (exec .mapDriveR { inPhase 9#4 with snapR := 1000 })
    (fun t => t.pwmRB == 255 && t.pwmRA == 0 && t.seqPhase == 10#4) = true := by decide
theorem test_L1_loopReadL : nextHas (exec .loopReadL { inPhase 4#4 with condL := 1600, condR := 7 })
    (fun t => t.snapL == 1600 && t.snapR == 0 && t.seqPhase == 5#4) = true := by decide
theorem test_L2_loopReadR : nextHas (exec .loopReadR { inPhase 5#4 with condR := 2000, condL := 7 })
    (fun t => t.snapR == 2000 && t.snapL == 0 && t.seqPhase == 6#4) = true := by decide
theorem test_L3_loopDiag : nextHas (exec .loopDiag { inPhase 10#4 with snapL := 1000, snapR := 2000 })
    (fun t => t.diag == [.loopReport 1000 2000] && t.seqPhase == 4#4) = true := by decide

/-! ### Dispatch, reset, refusals: TV-S -/

theorem test_R140_seqStep : nextHas (exec .seqStep (inPhase 0#4)) (fun t => t.seqPhase == 1#4 && t.diag == []) = true := by
  decide
theorem test_S8_reserved_phase : refusedWith (exec .seqStep (inPhase 11#4)) .reservedPhase = true := by decide
theorem test_S9_assertion :
    refusedWith (step { inPhase 1#4 with stimuli := [⟨0x40#8, 0, some .gateEval⟩] }) .scriptAssertion = true := by decide
theorem test_R250_reset : exec .reset { inPhase 4#4 with enL := true, pwmLA := 204, diag := [.loopReport 1 2] } =
    .next State.reset := rfl
theorem test_reserved_byte : refusedWith (step { State.reset with stimuli := [stim 0x04 0] }) .reservedWord = true := by decide

/-! ### Scripts (30_encoding.md R100, R101) -/

theorem test_script_text :
    readScript "@100 PULSE_L 1100  ; left\n@2000 SEQ:GATE_START\n; only a comment\n@2000 SEQ".toList =
      some [⟨100, .pulse .L 1100⟩, ⟨2000, .seqMicro .gateStart⟩, ⟨2000, .seq⟩] := by decide
theorem test_script_ill_formed : readScript "@x SEQ".toList = none := by decide
/-- The encoding of the first six lines of program P3, sorted by time. -/
theorem test_P3_order : scriptStimuli [⟨0, .reset⟩, ⟨1000, .pulse .L 1700⟩, ⟨1000, .pulse .R 1600⟩] =
    some [stim 0x80 0, stim 0x01 1000, stim 0x03 1000, stim 0x02 2600, stim 0x00 2700] := by decide

/-! ### Witnesses: concrete states and operands that meet the hypotheses of the statements -/

theorem witness_PhaseCodeSelectsMicroOperation :
    (0#4).toNat < 11 ∧ (10#4).toNat < 11 ∧ 11 ≤ (11#4).toNat ∧ 11 ≤ (15#4).toNat := by decide

theorem witness_DecodeInvertsEncode :
    decode (.stimulus 0x80#8) = .ok .reset ∧ decode (.phase 10#4) = .ok .loopDiag := by decide

theorem witness_WrittenScriptReadsBack :
    (∀ x ∈ ([⟨0, .pulse .R 0⟩, ⟨109, .seqMicro .loopDiag⟩] : List ScriptLine), x.what.wf = true) ∧
    readScript (writeScript [⟨0, .pulse .R 0⟩, ⟨109, .seqMicro .loopDiag⟩]) =
      some [⟨0, .pulse .R 0⟩, ⟨109, .seqMicro .loopDiag⟩] := by decide

theorem witness_PseudoOperationsExpandInTimeOrder :
    scriptWf [⟨0, .pulse .L 1000⟩, ⟨500, .pulse .R 200⟩, ⟨500, .gateIter⟩] = true := by decide

/-- The reset state at phase 3 with one SEQ stimulus to come, which asserts the micro-operation `m`. -/
def asserting (m : Option Instr) : State := { inPhase 3#4 with stimuli := [⟨0x40#8, 0, m⟩] }

theorem witness_StepRunsDecodedOperation_plain :
    (asserting none).stimuli = ⟨0x40#8, 0, none⟩ :: [] ∧ (asserting none).time ≤ 0 ∧
    decodeByte 0x40#8 = .ok .seqStep ∧ ∀ m, (none : Option Instr) = some m → decodePhase 3#4 = .ok m :=
  ⟨rfl, by decide, by decide, fun _ h => nomatch h⟩

theorem witness_StepRunsDecodedOperation_asserted :
    (asserting (some .gateEval)).stimuli = ⟨0x40#8, 0, some .gateEval⟩ :: [] ∧
    (asserting (some .gateEval)).time ≤ 0 ∧ decodeByte 0x40#8 = .ok .seqStep ∧
    ∀ m, some Instr.gateEval = some m → decodePhase 3#4 = .ok m :=
  ⟨rfl, by decide, by decide, by intro m h; cases h; decide⟩

theorem witness_ReservedEncodingsRefused_bytes :
    (0xC0#8).extractLsb' 6 2 = 0b11#2 ∧ (0xFF#8).extractLsb' 6 2 = 0b11#2 ∧
    ((0x04#8).extractLsb' 6 2 = 0b00#2 ∧ (0x04#8).extractLsb' 2 4 ≠ 0#4) ∧
    ((0x41#8).extractLsb' 6 2 = 0b01#2 ∧ (0x41#8).extractLsb' 0 6 ≠ 0#6) ∧
    ((0x81#8).extractLsb' 6 2 = 0b10#2 ∧ (0x81#8).extractLsb' 0 6 ≠ 0#6) := by decide

theorem witness_ReservedEncodingsRefused_phases :
    11 ≤ (inPhase 11#4).seqPhase.toNat ∧ 11 ≤ (inPhase 15#4).seqPhase.toNat ∧
    (inPhase 10#4).seqPhase.toNat ≤ 10 ∧ ∃ t, exec .loopDiag (inPhase 10#4) = .next t :=
  ⟨by decide, by decide, by decide, _, rfl⟩

theorem witness_FailedScriptAssertionRefused :
    (asserting (some .gateStart)).stimuli = ⟨0x40#8, 0, some .gateStart⟩ :: [] ∧
    (asserting (some .gateStart)).time ≤ 0 ∧ decodePhase (asserting (some .gateStart)).seqPhase ≠ .ok .gateStart :=
  ⟨rfl, by decide, by decide⟩

theorem witness_StreamConventions :
    State.reset.stimuli = [] ∧ ({ resetAt 5 with stimuli := [stim 0x40 4] } : State).stimuli = stim 0x40 4 :: [] ∧
    (stim 0x40 4).t < (resetAt 5).time := by decide

theorem witness_SeqStepPerformsSelectedMicroOperation :
    decodePhase (inPhase 0#4).seqPhase = .ok .gateStart ∧ decodePhase (inPhase 10#4).seqPhase = .ok .loopDiag ∧
    11 ≤ (inPhase 11#4).seqPhase.toNat ∧ 11 ≤ (inPhase 15#4).seqPhase.toNat := by decide

theorem witness_TimeNeverDecreasesAndParametersStay :
    ∃ t, step { resetAt 5 with stimuli := [stim 0x01 5] } = .next t := ⟨_, rfl⟩

theorem witness_SeqStepFollowsPhaseTable :
    (∃ t, exec .seqStep (inPhase 0#4) = .next t) ∧ (∃ t, exec .seqStep (atEval 0 0 0) = .next t ∧ t.seqPhase = 1#4) ∧
    (∃ t, exec .seqStep (atEval 10000 0 0) = .next t ∧ t.seqPhase = 4#4) ∧ ∃ t, exec .seqStep (inPhase 10#4) = .next t :=
  ⟨⟨_, rfl⟩, ⟨_, rfl, by decide⟩, ⟨_, rfl, by decide⟩, _, rfl⟩

theorem witness_PlainStreamNeverStops :
    (inPhase 10#4).seqPhase.toNat ≤ 10 ∧ PlainStream 0 [stim 0x01 0, stim 0x40 0, stim 0x80 7] := by
  refine ⟨by decide, by decide, ?_⟩
  intro x hx
  simp only [List.mem_cons, List.not_mem_nil, or_false] at hx
  rcases hx with rfl | rfl | rfl
  · exact ⟨rfl, .edgeRiseL, by decide⟩
  · exact ⟨rfl, .seqStep, by decide⟩
  · exact ⟨rfl, .reset, by decide⟩

theorem witness_EdgeFallLMeasuresHighTime_no_rise : (resetAt 1300).tsL = 0 := by decide

theorem witness_EdgeRiseRReadsCorrection : State.reset.cfg.wf = true ∧ State.reset.cfg = Config.default := by decide

theorem witness_EdgeFallRReadsInverted : (resetAt 3001).cfg = Config.default ∧
    3000 < (((resetAt 3001).time : Int) - (resetAt 3001).tsR) % 2 ^ 32 ∧
    (((resetAt 3000).time : Int) - (resetAt 3000).tsR) % 2 ^ 32 ≤ 3000 := by decide

theorem witness_CaptureStepsStayInTheirChannel :
    (∃ t, exec .edgeFallL (resetAt 1300) = .next t) ∧ (∃ t, exec .edgeFallL { resetAt 1300 with condR := 9 } = .next t) ∧
    (∃ t, exec .edgeRiseR (resetAt 1300) = .next t) ∧ (∃ t, exec .edgeRiseR { resetAt 1300 with condL := 9 } = .next t) ∧
    SameCapture .L (resetAt 1300) { resetAt 1300 with condR := 9 } ∧
    SameCapture .R (resetAt 1300) { resetAt 1300 with condL := 9 } :=
  ⟨⟨_, rfl⟩, ⟨_, rfl⟩, ⟨_, rfl⟩, ⟨_, rfl⟩, ⟨rfl, rfl, rfl⟩, rfl, rfl, rfl⟩

/-- One pair of operations of different channels, both orders completing. -/
theorem witness_CapturesOfDifferentChannelsCommute :
    (Instr.edgeFallL = .edgeRiseL ∨ Instr.edgeFallL = .edgeFallL) ∧
    (Instr.edgeRiseR = .edgeRiseR ∨ Instr.edgeRiseR = .edgeFallR) ∧
    ∃ a b t, exec .edgeFallL (resetAt 1300) = .next a ∧ exec .edgeRiseR a = .next t ∧
      exec .edgeRiseR (resetAt 1300) = .next b ∧ exec .edgeFallL b = .next t :=
  ⟨.inr rfl, .inl rfl, _, _, _, rfl, rfl, rfl, rfl⟩

/-- The reset state with a rise and a fall of one channel to come, `w` apart, and in between a step of the
sequencer and an edge of the other channel. -/
def pulseRun (rise fall between : BitVec 8) (w : Nat) : State :=
  { State.reset with stimuli := stim rise 100 :: ([stim 0x40 100, stim between 100] ++ stim fall (100 + w) :: []) }

theorem quiet_between (c : Channel) (between : BitVec 8) (h : between ≠ 0x80#8 ∧ ¬ edgeWord c between) :
    QuietFor c [stim 0x40 100, stim between 100] := by
  intro x hx
  simp only [List.mem_cons, List.not_mem_nil, or_false] at hx
  rcases hx with rfl | rfl
  · refine ⟨by decide, ?_⟩
    cases c <;> (rintro (h | h) <;> cases h)
  · exact h

/-- The greatest width the hypothesis allows. -/
theorem witness_LeftPulseWidthIsHighTime :
    QuietFor .L [stim 0x40 100, stim 0x03 100] ∧ 100 + (2 ^ 32 - 1) - 100 < 2 ^ Config.default.clkBits ∧
    ∃ t, runSteps 4 (pulseRun 0x01 0x00 0x03 (2 ^ 32 - 1)) = .next t ∧ t.refL = 4294967295 :=
  ⟨quiet_between .L 0x03 ⟨by decide, by rintro (h | h) <;> cases h⟩, by decide, _, rfl, by decide⟩

/-- Every row of the table at a boundary of its range: the widths of TV-E's second table. -/
theorem witness_RightPulseReadingByWidth :
    QuietFor .R [stim 0x40 100, stim 0x00 100] ∧ Config.default.clkBits = 32 ∧
    ∀ p ∈ [(0, 1500), (999, 1500), (1000, 2000), (1001, 2000), (1224, 2000), (1225, 1775), (1450, 1550), (1451, 1500),
      (1549, 1500), (1550, 1450), (1850, 1150), (1851, 1000), (1999, 1000), (2000, 1000), (2001, 1500), (3001, 1500)],
      nextHas (runSteps 4 (pulseRun 0x03 0x02 0x00 p.1)) (fun t => t.condR == p.2) = true :=
  ⟨quiet_between .R 0x00 ⟨by decide, by rintro (h | h) <;> cases h⟩, by decide, by decide⟩

theorem witness_RightChannelNeutralWhileHigh :
    QuietFor .R [stim 0x40 100, stim 0x01 100] ∧ ∃ t, runSteps 3 (pulseRun 0x03 0x02 0x01 1200) = .next t :=
  ⟨quiet_between .R 0x01 ⟨by decide, by rintro (h | h) <;> cases h⟩, _, rfl⟩

theorem witness_CondTakesFirstMatchingRule :
    ((1500 : Int) - 50 < 1451 ∧ (1549 : Int) < 1500 + 50) ∧ (1775 < 1776 ∧ 1999 < 2000) ∧ (1000 < 1001 ∧ 1149 < 1150) ∧
    (999 < 1000 ∨ 999 > 2000) ∧ cond Config.default 1450 = 1450 := by decide

theorem witness_ConditionedValuesStayInSet :
    ∃ t, runSteps 1 (State.initial Config.default 0 [stim 0x03 5]) = .next t ∧ t.condOf .R = 1500 := ⟨_, rfl, by decide⟩

theorem witness_DirectionFollowsNeutral : 1501 > Config.default.neutral ∧ 1500 ≤ Config.default.neutral := by decide

theorem witness_DutyIsFloorOfScaledMagnitude :
    1500 = Config.default.neutral ∧ 1501 > Config.default.neutral ∧ 1499 < Config.default.neutral ∧
    0 ≤ mag Config.default 1501 ∧ 0 ≤ mag Config.default 1499 ∧ 0 < Config.default.span := by decide

theorem witness_MapOperations_both_directions :
    (1501 > State.reset.cfg.neutral ∧ 1500 ≤ State.reset.cfg.neutral) ∧ State.reset.cfg = Config.default ∧
    State.reset.snapL = 0 ∧ ({ State.reset with snapL := 1500 } : State).snapL = 1500 := by decide

/-- One state for each case of the evaluation: pattern and streak, no pattern and timeout, neither. -/
theorem witness_GateEvalDecidesRelease :
    gatePattern Config.default 1199 1701 = true ∧ (atEval 10000 1199 1701).gateVerdict = causePattern ∧
    (atEval 10000 1200 1701).gateVerdict = causeTimeout ∧ (atEval 9999 1199 1701).gateVerdict = causeNone := by decide

/-- A gate started at 0, evaluated with the stimulus `x` to come. -/
theorem gateOpen_atEval (x : Stimulus) : GateOpen 0 { atEval 0 0 0 with stimuli := [x] } :=
  ⟨.inr (.inr rfl), le_refl 0, (by decide : (0 : Nat) < 0 + 2 ^ 32), rfl, 0, le_refl 0, le_refl 0, rfl⟩

theorem witness_GateReleasesExactlyAtTimeout_releases :
    GateOpen 0 { atEval 0 0 0 with stimuli := [stim 0x40 10000] } ∧
    Config.default.gateTimeout ≤ Config.default.gateWindow ∧ 10000 < 0 + 2 ^ Config.default.clkBits ∧
    0 + Config.default.gateTimeout ≤ 10000 ∧
    ∃ t, step { atEval 0 0 0 with stimuli := [stim 0x40 10000] } = .next t :=
  ⟨gateOpen_atEval _, by decide, by decide, by decide, _, rfl⟩

theorem witness_GateReleasesExactlyAtTimeout_stays_open :
    GateOpen 0 { atEval 0 0 0 with stimuli := [stim 0x40 9999] } ∧ ¬ 0 + Config.default.gateTimeout ≤ 9999 ∧
    ∃ t, step { atEval 0 0 0 with stimuli := [stim 0x40 9999] } = .next t :=
  ⟨gateOpen_atEval _, by decide, _, rfl⟩

/-- The gate read phase 1, three SEQ_STEPs at the timeout to come. -/
def threeSteps : State := { inPhase 1#4 with stimuli := [stim 0x40 10000, stim 0x40 10000, stim 0x40 10000] }

theorem plain_seqs (T : Nat) (n t : Nat) (h : T ≤ t) : PlainStream T (List.replicate n (stim 0x40 t)) := by
  refine ⟨?_, ?_⟩
  · induction n generalizing T with
    | zero => rfl
    | succ n ih =>
      have := ih t (le_refl t)
      simp only [streamWf, Bool.and_eq_true] at this ⊢
      simp only [List.replicate_succ, timesFrom, List.all_cons, Bool.and_eq_true, decide_eq_true_eq]
      exact ⟨⟨h, this.1⟩, rfl, this.2⟩
  · intro x hx
    rw [List.eq_of_mem_replicate hx]
    exact ⟨rfl, .seqStep, test_S5_seqStep⟩

theorem witness_GateAlwaysReleases :
    GateOpen 0 threeSteps ∧ PlainStream threeSteps.time threeSteps.stimuli ∧
    (∀ x ∈ threeSteps.stimuli, x.word ≠ 0x80#8) ∧
    (∀ x ∈ threeSteps.stimuli, 0 + threeSteps.cfg.gateTimeout ≤ x.t ∧ x.t < 0 + 2 ^ threeSteps.cfg.clkBits) ∧
    3 ≤ (threeSteps.stimuli.filter fun x => x.word == 0x40#8).length :=
  ⟨⟨.inl rfl, by decide, by decide, rfl, 0, le_refl 0, le_refl 0, rfl⟩, plain_seqs 0 3 10000 (by decide), by decide,
    by decide, by decide⟩

theorem witness_ReleaseIsPermanent :
    4 ≤ (inPhase 4#4).seqPhase.toNat ∧ (inPhase 10#4).seqPhase.toNat ≤ 10 ∧
    ∃ t, step { inPhase 10#4 with stimuli := [stim 0x40 0] } = .next t := ⟨by decide, by decide, _, rfl⟩

theorem witness_LoopIterationDrivesBothMotors :
    (inPhase 4#4).seqPhase = phLReadL ∧ (List.replicate 7 (stim 0x40 0)).length = 7 ∧
    PlainStream (inPhase 4#4).time (List.replicate 7 (stim 0x40 0)) ∧
    ∀ x ∈ List.replicate 7 (stim 0x40 0), x.word = 0x40#8 :=
  ⟨by decide, by decide, plain_seqs 0 7 0 (by decide), by decide⟩

/-- Both forms of the last clause: seven SEQ_STEPs from phase 4, and thirteen from phase 5, where the iteration in
progress takes six; the other channel's edges go on. -/
theorem witness_LastCommandHeldWithoutSignal :
    (4 ≤ (inPhase 4#4).seqPhase.toNat ∧ (inPhase 4#4).seqPhase = phLReadL ∧
      QuietFor .L (stim 0x03 0 :: List.replicate 7 (stim 0x40 0)) ∧
      7 ≤ seqCount 8 (stim 0x03 0 :: List.replicate 7 (stim 0x40 0)) ∧
      ∃ t, runSteps 8 { inPhase 4#4 with stimuli := stim 0x03 0 :: List.replicate 7 (stim 0x40 0) } = .next t) ∧
    (inPhase 5#4).seqPhase.toNat ≤ 10 ∧ QuietFor .R (List.replicate 13 (stim 0x40 0)) ∧
    13 ≤ seqCount 13 (List.replicate 13 (stim 0x40 0)) ∧
    ∃ t, runSteps 13 { inPhase 5#4 with stimuli := List.replicate 13 (stim 0x40 0) } = .next t := by
  have quiet : ∀ c, ¬ edgeWord c 0x40#8 := by
    intro c
    cases c <;> (rintro (h | h) <;> cases h)
  refine ⟨⟨by decide, by decide, ?_, by decide, _, rfl⟩, by decide, ?_, by decide, _, rfl⟩
  · intro x hx
    rcases List.mem_cons.mp hx with rfl | hx
    · exact ⟨by decide, by rintro (h | h) <;> cases h⟩
    · rw [List.eq_of_mem_replicate hx]
      exact ⟨by decide, quiet .L⟩
  · intro x hx
    rw [List.eq_of_mem_replicate hx]
    exact ⟨by decide, quiet .R⟩

/-! An infinite run that meets every hypothesis of the two statements about fair runs: SEQ_STEP number `n` at the
time `10000 * n`, from reset. The gate releases at its first evaluation, number 3. -/

/-- The environment of that run. -/
def steadySeqs (n : Nat) : Stimulus := stim 0x40 (10000 * n)

/-- What the run has reached before its step `n`. -/
def steadyInv (n : Nat) (u : State) : Prop :=
  u.cfg = Config.default ∧ u.time ≤ 10000 * n ∧
    (n ≤ 3 → u.seqPhase.toNat = n ∧ u.gateT0 = 0) ∧ (4 ≤ n → 4 ≤ u.seqPhase.toNat ∧ u.seqPhase.toNat ≤ 10)

theorem steadyInv_step (n : Nat) (u : State) (h : steadyInv n u) :
    ∃ t, step (u.supply (steadySeqs n)) = .next t ∧ steadyInv (n + 1) t := by
  obtain ⟨hc, ht, h3, h4⟩ := h
  have hstep := step_supply (s := u) (x := steadySeqs n) ht test_S5_seqStep (holds_plain u _ rfl)
  have hp : (u.advance (steadySeqs n) []).seqPhase.toNat ≤ 10 := by
    by_cases hn : n ≤ 3
    · have := (h3 hn).1
      simp only [advance_seqPhase]
      omega
    · exact (h4 (by omega)).2
  obtain ⟨t, he⟩ := exec_seqStep_next hp
  refine ⟨t, hstep.trans he, (exec_env he).1.trans hc, ?_, ?_, ?_⟩
  · rw [(exec_env he).2.1]
    simp only [advance_time, steadySeqs, stim]
    omega
  · intro hn
    have hq := h3 (by omega)
    rcases seqStep_cases he with h | h | h | h | h | h | h | h | h | h | h <;> obtain ⟨hp, h⟩ := h <;>
      simp only [advance_seqPhase] at hp <;> rw [hp] at hq <;> simp at hq <;> try omega
    · cases h
      obtain ⟨rfl, -⟩ := hq
      simp [State.now, steadySeqs, stim, wmod]
    · cases h
      obtain ⟨rfl, h0⟩ := hq
      exact ⟨rfl, h0⟩
    · cases h
      obtain ⟨rfl, h0⟩ := hq
      exact ⟨rfl, h0⟩
  · intro hn
    by_cases h5 : 4 ≤ n
    · exact seqStep_loop he (h4 h5).1
    · obtain rfl : n = 3 := by omega
      have hq := h3 (le_refl 3)
      have h30 : (u.advance (steadySeqs 3) []).sub (u.advance (steadySeqs 3) []).now
          (u.advance (steadySeqs 3) []).gateT0 = 30000 := by
        simp only [State.sub, State.now, advance_cfg, advance_time, advance_gateT0, hc, hq.2]
        decide
      have hv : (u.advance (steadySeqs 3) []).gateVerdict ≠ causeNone := by
        intro hv
        rcases gateVerdict_cases (u.advance (steadySeqs 3) []) with ⟨hw, -⟩ | ⟨hw, -⟩ | ⟨-, hto, -⟩
        · rw [hw] at hv
          exact absurd hv (by decide)
        · rw [hw] at hv
          exact absurd hv (by decide)
        · rw [h30, advance_cfg, hc] at hto
          exact hto (by decide)
      rcases seqStep_cases he with h | h | h | h | h | h | h | h | h | h | h <;> obtain ⟨hp, h⟩ := h <;>
        simp only [advance_seqPhase] at hp <;> rw [hp] at hq <;> simp at hq
      rw [exec_gateEval_release _ hv] at h
      cases h
      simp

theorem exists_steadyRun : ∃ ρ, ρ 0 = State.reset ∧ IsRun steadySeqs ρ ∧ ∀ n, steadyInv n (ρ n) :=
  exists_isRun ⟨rfl, le_refl 0, fun _ => ⟨rfl, rfl⟩, fun h => absurd h (by decide)⟩ steadyInv_step

theorem steadySeqs_fair : Fair steadySeqs :=
  ⟨fun n => ⟨n, le_refl n, rfl⟩, fun T => ⟨T, by simp only [steadySeqs, stim]; omega⟩⟩

/-- Both forms of the release: three SEQ_STEPs from exactly the timeout on, and gaps of 10000. -/
theorem witness_FairRunReleasesGate :
    ∃ ρ, IsRun steadySeqs ρ ∧ Fair steadySeqs ∧ NoReset steadySeqs ∧ (ρ 0).seqPhase = phGStart ∧
      FirstSeq steadySeqs 0 ∧ SeqsPastTimeout (ρ 0).cfg steadySeqs 0 3 ∧
      SeqGapsWithin 10000 steadySeqs ∧ (ρ 0).cfg.gateTimeout + 3 * 10000 < 2 ^ (ρ 0).cfg.clkBits := by
  obtain ⟨ρ, h0, hr, -⟩ := exists_steadyRun
  refine ⟨ρ, hr, steadySeqs_fair, fun n => (by decide : (0x40#8) ≠ 0x80#8), by rw [h0]; rfl,
    ⟨rfl, fun n hn => absurd hn (Nat.not_lt_zero n)⟩, ?_, ?_, by rw [h0]; decide⟩
  · rw [h0]
    exact ⟨1, 2, by decide, by decide, by decide, rfl, rfl, rfl, by decide, by decide⟩
  · intro a b hab _ _ hbetween
    have hb : b = a + 1 := by
      by_contra hne
      exact hbetween (a + 1) (by omega) (by omega) rfl
    simp only [steadySeqs, stim, hb]
    omega

theorem witness_FairRunCompletesLoopIterations :
    ∃ ρ, IsRun steadySeqs ρ ∧ Fair steadySeqs ∧ NoReset steadySeqs ∧
      4 ≤ (ρ 4).seqPhase.toNat ∧ (ρ 4).seqPhase.toNat ≤ 10 := by
  obtain ⟨ρ, -, hr, hI⟩ := exists_steadyRun
  exact ⟨ρ, hr, steadySeqs_fair, fun n => (by decide : (0x40#8) ≠ 0x80#8), (hI 4).2.2.2 (le_refl 4)⟩

/-- A clock that stands still: edges of the left channel at the time 0, from reset. -/
theorem witness_UnfairRunMayNeverRelease :
    ∃ ρ, IsRun (fun _ => stim 0x01 0) ρ ∧ (ρ 0).seqPhase = phGStart ∧ 0 < (ρ 0).cfg.gateWindow ∧
      0 < (ρ 0).cfg.gateTimeout ∧ ∀ n : Nat, ((fun _ => stim 0x01 0) n : Stimulus).t = 0 := by
  obtain ⟨ρ, h0, hr, -⟩ := exists_isRun (env := fun _ => stim 0x01 0) (s := State.reset)
    (I := fun _ u => u.time = 0) rfl (fun _ u hu => by
      have hs := step_supply (s := u) (x := stim 0x01 0) (le_of_eq hu) test_S2_edgeRiseL (holds_plain u _ rfl)
      exact ⟨_, hs.trans rfl, rfl⟩)
  refine ⟨ρ, hr, ?_, ?_, ?_, fun _ => rfl⟩ <;> rw [h0] <;> decide

/-- A released block whose two motors are driven, before a MAP_ZERO_L that reverses motor L. -/
def reversing : State :=
  { inPhase 6#4 with
    enL := true, enR := true, cause := 2#2, snapL := 1300, snapR := 1400, pwmLA := 102, pwmRB := 51
    stimuli := [stim 0x40 0] }

theorem witness_DriveSafePreservedByEveryStep :
    DriveSafe reversing ∧ ∃ t, step reversing = .next t ∧ t.pwmLA = 0 := by
  refine ⟨⟨by decide, fun h => absurd h (by decide), fun _ => ⟨rfl, rfl, .inr rfl⟩, ?_, fun h => absurd h (by decide),
    fun h => absurd h (by decide), fun h => absurd h (by decide), fun h => absurd h (by decide)⟩, _, rfl, by decide⟩
  intro c
  cases c
  · exact .inr rfl
  · exact .inl rfl

theorem witness_LinesNeverBothDrivenInAnyRun : ∃ t, runSteps 1 (State.initial Config.default 5 [stim 0x40 5]) = .next t :=
  ⟨_, rfl⟩

/-- Both clauses: a closed gate, and a released one (four SEQ_STEPs, the last at the timeout). -/
theorem witness_OutputsDeadUntilRelease :
    (∃ t, runSteps 0 (State.initial Config.default 0 []) = .next t ∧ t.seqPhase.toNat < 4) ∧
    ∃ t, runSteps 4 (State.initial Config.default 0
      [stim 0x40 0, stim 0x40 10000, stim 0x40 10000, stim 0x40 10000]) = .next t ∧ t.enL = true :=
  ⟨⟨_, rfl, by decide⟩, _, rfl, by decide⟩

/-- Both clauses at once: eleven SEQ_STEPs without an edge end in phase 10 with both motors driven backward. -/
theorem witness_UnconditionedChannelDrivesFullBackward :
    (∀ x ∈ stim 0x40 0 :: List.replicate 9 (stim 0x40 10000), x.word ≠ 0x00#8 ∧ x.word ≠ 0x02#8 ∧ x.word ≠ 0x03#8) ∧
    ∃ t, runSteps 10 (State.initial Config.default 0 (stim 0x40 0 :: List.replicate 9 (stim 0x40 10000))) = .next t ∧
      t.seqPhase = 10#4 ∧ t.pwmLB = 255 ∧ t.pwmRB = 255 :=
  ⟨by decide, _, rfl, by decide, by decide, by decide⟩

/-- A GATE_EVAL, a LOOP_DIAG, and an edge event in phase 3, which appends nothing. -/
theorem witness_DiagOnlyAppendedByEvalAndReport :
    (∃ t, step { atEval 0 0 0 with stimuli := [stim 0x40 0] } = .next t ∧ t.diag = [.gateStatus .ERROR 0 0]) ∧
    (∃ t, step { inPhase 10#4 with stimuli := [stim 0x40 0] } = .next t ∧ t.diag = [.loopReport 0 0]) ∧
    ∃ t, step { atEval 0 0 0 with stimuli := [stim 0x00 0] } = .next t ∧ t.diag = [] :=
  ⟨⟨_, rfl, rfl⟩, ⟨_, rfl, rfl⟩, _, rfl, rfl⟩

/-- A record appended, and the trace emptied. -/
theorem witness_NoOperationReadsDiag :
    (∃ t, exec .gateEval (atEval 100 0 0) = .next t ∧ t.diag = [.gateStatus .ERROR 0 0]) ∧
    ∃ t, exec .reset (atEval 100 0 0) = .next t ∧ t.diag = [] := ⟨⟨_, rfl, rfl⟩, _, rfl, rfl⟩

theorem witness_SequencerReadsOnlyConditionedValues : ∃ t, exec .seqStep (inPhase 4#4) = .next t := ⟨_, rfl⟩

theorem witness_RegistersInRangeAfterReset : Config.default.wf = true ∧ ({ clkBits := 14 } : Config).wf = true := by decide

/-- A duty register and a timing register at the top of their ranges. -/
theorem witness_RegistersInRangePreservedByEveryStep :
    RegistersInRange { State.reset with pwmLA := 255, tsL := 4294967295, stimuli := [stim 0x00 0] } ∧
    ∃ t, step { State.reset with pwmLA := 255, tsL := 4294967295, stimuli := [stim 0x00 0] } = .next t := by
  refine ⟨⟨by decide, ?_, ?_, ?_, ?_, by decide, by decide, ?_, fun r hr => nomatch hr⟩, _, rfl⟩
  · intro c; cases c <;> decide
  · intro c; cases c <;> decide
  · intro c; cases c <;> decide
  · intro c; cases c <;> decide
  · intro c d; cases c <;> cases d <;> decide

theorem witness_SampleDifferenceIsElapsedTime : 4294967096 ≤ 4294968596 ∧ 4294968596 - 4294967096 < 2 ^ 32 := by decide

end Sys2Proof.Tests
end

/-! ## The registers after reset (10_state.md R55) -/

namespace Sys2Proof.Machine

/-! What each register of the table of R55 holds in `State.initial`, whatever the parameters, the time and the
stimuli: both the power-on state `State.reset` and the result of RESET (`exec_reset`) are instances. -/

section InitialRegisters

variable (cfg : Config) (T : Nat) (xs : List Stimulus)

@[simp] theorem initial_tsL : (State.initial cfg T xs).tsL = 0 := rfl
@[simp] theorem initial_tsR : (State.initial cfg T xs).tsR = 0 := rfl
@[simp] theorem initial_refL : (State.initial cfg T xs).refL = 0 := rfl
@[simp] theorem initial_refR : (State.initial cfg T xs).refR = 0 := rfl
@[simp] theorem initial_condL : (State.initial cfg T xs).condL = 0 := rfl
@[simp] theorem initial_condR : (State.initial cfg T xs).condR = 0 := rfl
@[simp] theorem initial_seqPhase : (State.initial cfg T xs).seqPhase = 0#4 := rfl
@[simp] theorem initial_gateT0 : (State.initial cfg T xs).gateT0 = 0 := rfl
@[simp] theorem initial_streakT0 : (State.initial cfg T xs).streakT0 = 0 := rfl
@[simp] theorem initial_cause : (State.initial cfg T xs).cause = 0#2 := rfl
@[simp] theorem initial_snapL : (State.initial cfg T xs).snapL = 0 := rfl
@[simp] theorem initial_snapR : (State.initial cfg T xs).snapR = 0 := rfl
@[simp] theorem initial_pwmLA : (State.initial cfg T xs).pwmLA = 0 := rfl
@[simp] theorem initial_pwmLB : (State.initial cfg T xs).pwmLB = 0 := rfl
@[simp] theorem initial_pwmRA : (State.initial cfg T xs).pwmRA = 0 := rfl
@[simp] theorem initial_pwmRB : (State.initial cfg T xs).pwmRB = 0 := rfl
@[simp] theorem initial_enL : (State.initial cfg T xs).enL = false := rfl
@[simp] theorem initial_enR : (State.initial cfg T xs).enR = false := rfl
@[simp] theorem initial_diag : (State.initial cfg T xs).diag = [] := rfl

end InitialRegisters

/-- Settles O58: the state after reset is `State.initial` at power-on, whose registers are read off one by one. -/
theorem stateAfterReset : Obligations.StateAfterReset :=
  ⟨initial_tsL .., initial_tsR .., initial_refL .., initial_refR .., initial_condL .., initial_condR ..,
    initial_seqPhase .., initial_gateT0 .., initial_streakT0 .., initial_cause .., initial_snapL .., initial_snapR ..,
    initial_pwmLA .., initial_pwmLB .., initial_pwmRA .., initial_pwmRB .., initial_enL .., initial_enR ..,
    initial_diag ..⟩

end Sys2Proof.Machine

/-! ## The decoders and the script order (30_encoding.md R95, R97, R98, R101) -/

namespace Sys2Proof.Machine

/-! ### The stimulus byte -/

/-- The bits `w[1]` and `w[0]` name the edge event: channel, then level (R92). -/
theorem edgeOf_eventChannel (w : BitVec 8) (lvl : Bool) : edgeOf (eventChannel w) lvl =
    if w.getLsbD 1 then (if lvl then .edgeRiseR else .edgeFallR) else if lvl then .edgeRiseL else .edgeFallL := by
  unfold eventChannel
  cases w.getLsbD 1 <;> cases lvl <;> rfl

/-- Settles O1: the decoder's own branches, with the edge event read off the two low bits. -/
theorem decodeByteAnswersExactlySixWords : Obligations.DecodeByteAnswersExactlySixWords := by
  intro w
  rw [decodeByte, edgeOf_eventChannel]

/-- The four ways in which R98 calls a byte reserved: the format `11`, or a low bit set that the chosen format
fixes at 0. -/
def ReservedByte (w : BitVec 8) : Prop :=
  w.extractLsb' 6 2 = 0b11#2 ∨
    (w.extractLsb' 6 2 = 0b00#2 ∧ w.extractLsb' 2 4 ≠ 0#4) ∨
    (w.extractLsb' 6 2 = 0b01#2 ∧ w.extractLsb' 0 6 ≠ 0#6) ∨
    (w.extractLsb' 6 2 = 0b10#2 ∧ w.extractLsb' 0 6 ≠ 0#6)

/-- The byte decoder has one verdict for what it does not decode. -/
theorem decodeByte_error {w : BitVec 8} {e : Reject} (h : decodeByte w = .error e) : e = .reservedWord := by
  unfold decodeByte at h
  split_ifs at h
  cases h
  rfl

/-- None of the six valid words is reserved (R97, R98). -/
theorem not_reservedByte_of_decodeByte {w : BitVec 8} {i : Instr} (h : decodeByte w = .ok i) : ¬ ReservedByte w := by
  unfold ReservedByte
  rcases decodeByte_cases h with ⟨rfl, -⟩ | ⟨rfl, -⟩ | ⟨rfl, -⟩ | ⟨rfl, -⟩ | ⟨rfl, -⟩ | ⟨rfl, -⟩ <;> decide

theorem decodeByte_reserved {w : BitVec 8} (h : ReservedByte w) : decodeByte w = .error .reservedWord := by
  cases hd : decodeByte w with
  | ok i => exact absurd h (not_reservedByte_of_decodeByte hd)
  | error e => rw [decodeByte_error hd]

/-- A stimulus whose time is not past and whose word does not decode is refused for its word (R98). -/
theorem step_reservedWord {s : State} {x : Stimulus} {rest : List Stimulus} {e : Reject} (hs : s.stimuli = x :: rest)
    (ht : s.time ≤ x.t) (hd : decodeByte x.word = .error e) : step s = .refused .reservedWord := by
  simp only [step, State.fetch, hs, State.take, if_neg ht.not_gt, hd]

/-! ### The phase code -/

theorem decodePhase_reserved {p : BitVec 4} (h : 11 ≤ p.toNat) : decodePhase p = .error .reservedPhase := by
  unfold decodePhase
  split
  case h_12 => rfl
  all_goals omega

/-- Settles O2: row by row below 11, and the decoder's last branch from 11 on. -/
theorem phaseCodeSelectsMicroOperation : Obligations.PhaseCodeSelectsMicroOperation := by
  refine ⟨fun p h => ?_, fun p h => decodePhase_reserved h⟩
  unfold decodePhase
  generalize p.toNat = n at h ⊢
  interval_cases n <;> rfl

/-- A SEQ_STEP in a phase from 11 on is refused by name (R98). -/
theorem exec_seqStep_reserved {s : State} (h : 11 ≤ s.seqPhase.toNat) :
    exec .seqStep s = .refused .reservedPhase := by
  simp only [exec, execSeqStep]
  split
  case h_12 => rfl
  all_goals omega

/-! ### Which phase an operation leaves -/

/-- GATE_EVAL goes back to phase 1, or into the loop at phase 4 (R144, R145). -/
theorem exec_gateEval_seqPhase {s t : State} (h : exec .gateEval s = .next t) :
    t.seqPhase = phGReadL ∨ t.seqPhase = phLReadL := by
  by_cases hv : s.gateVerdict = causeNone
  · rw [exec_gateEval_none s hv] at h
    cases h
    exact .inl rfl
  · rw [exec_gateEval_release s hv] at h
    cases h
    exact .inr rfl

/-- A micro-operation writes a phase that is not reserved, whatever phase it started from (R95, R98). -/
theorem exec_micro_seqPhase_le {i : Instr} {s t : State} (hi : i.isMicro = true) (h : exec i s = .next t) :
    t.seqPhase.toNat ≤ 10 := by
  cases i
  case gateEval => rcases exec_gateEval_seqPhase h with hp | hp <;> simp [hp]
  case edgeFallL | edgeRiseL | edgeFallR | edgeRiseR | seqStep | reset => cases hi
  all_goals
    cases h
    simp [takeSnapshot_eq, zeroOther_eq, driveSelected_eq]

/-- A SEQ_STEP that completes performed a micro-operation (R95, R140). -/
theorem exec_seqStep_micro {s t : State} (h : exec .seqStep s = .next t) :
    ∃ m, m.isMicro = true ∧ exec m s = .next t := by
  rcases seqStep_cases h with h | h | h | h | h | h | h | h | h | h | h <;> exact ⟨_, rfl, h.2⟩

/-- No operation reaches a reserved phase: an edge event leaves the phase, RESET makes it 0, and the others
perform a micro-operation (R98). -/
theorem exec_seqPhase_le {i : Instr} {s t : State} (hs : s.seqPhase.toNat ≤ 10) (h : exec i s = .next t) :
    t.seqPhase.toNat ≤ 10 := by
  cases i
  case edgeFallL | edgeRiseL | edgeFallR | edgeRiseR =>
    cases h
    exact hs
  case reset =>
    cases h
    simp
  case seqStep =>
    obtain ⟨m, hm, he⟩ := exec_seqStep_micro h
    exact exec_micro_seqPhase_le hm he
  all_goals exact exec_micro_seqPhase_le rfl h

/-- Settles O9. -/
theorem reservedEncodingsRefused : Obligations.ReservedEncodingsRefused :=
  ⟨fun _ _ _ hs ht hw => step_reservedWord hs ht (decodeByte_reserved hw),
    fun _ h => exec_seqStep_reserved h,
    fun _ _ _ hs h => exec_seqPhase_le hs h⟩

/-! ### Scripts -/

/-! The table of R101, one row each. -/

theorem expandLine_pulse_L (t w : Nat) :
    expandLine ⟨t, .pulse .L w⟩ = [⟨0x01#8, t, none⟩, ⟨0x00#8, t + w, none⟩] := rfl

theorem expandLine_pulse_R (t w : Nat) :
    expandLine ⟨t, .pulse .R w⟩ = [⟨0x03#8, t, none⟩, ⟨0x02#8, t + w, none⟩] := rfl

theorem expandLine_gateIter (t : Nat) : expandLine ⟨t, .gateIter⟩ =
    [⟨0x40#8, t, some .gateReadL⟩, ⟨0x40#8, t, some .gateReadR⟩, ⟨0x40#8, t, some .gateEval⟩] := rfl

theorem expandLine_loopIter (t : Nat) : expandLine ⟨t, .loopIter⟩ =
    [⟨0x40#8, t, some .loopReadL⟩, ⟨0x40#8, t, some .loopReadR⟩, ⟨0x40#8, t, some .mapZeroL⟩,
      ⟨0x40#8, t, some .mapDriveL⟩, ⟨0x40#8, t, some .mapZeroR⟩, ⟨0x40#8, t, some .mapDriveR⟩,
      ⟨0x40#8, t, some .loopDiag⟩] := rfl

theorem timesFrom_cons (T : Nat) (x : Stimulus) (xs : List Stimulus) :
    timesFrom T (x :: xs) = true ↔ T ≤ x.t ∧ timesFrom x.t xs = true := by
  simp [timesFrom]

/-- Inserting a stimulus by its time keeps times that never decrease. -/
theorem timesFrom_insertByTime {T : Nat} {x : Stimulus} {xs : List Stimulus} (hx : T ≤ x.t)
    (hxs : timesFrom T xs = true) : timesFrom T (insertByTime x xs) = true := by
  induction xs generalizing T with
  | nil => exact (timesFrom_cons ..).mpr ⟨hx, rfl⟩
  | cons y ys ih =>
    obtain ⟨hy, hys⟩ := (timesFrom_cons ..).mp hxs
    unfold insertByTime
    split_ifs with hxy
    · exact (timesFrom_cons ..).mpr ⟨hx, (timesFrom_cons ..).mpr ⟨hxy, hys⟩⟩
    · exact (timesFrom_cons ..).mpr ⟨hy, ih (Nat.le_of_not_ge hxy) hys⟩

/-- Inserting passes over earlier stimuli only, so among those of one time the inserted one comes first. -/
theorem filter_insertByTime (t : Nat) (x : Stimulus) (xs : List Stimulus) :
    (insertByTime x xs).filter (fun z => z.t == t) = (x :: xs).filter (fun z => z.t == t) := by
  induction xs with
  | nil => rfl
  | cons y ys ih =>
    unfold insertByTime
    split_ifs with hxy
    · rfl
    · have hne : x.t ≠ t ∨ y.t ≠ t := by omega
      rcases hne with hx | hy
      · simp [List.filter_cons, ih, hx]
      · simp [List.filter_cons, ih, hy]

theorem timesFrom_sortByTime (xs : List Stimulus) : timesFrom 0 (sortByTime xs) = true := by
  induction xs with
  | nil => rfl
  | cons x xs ih => exact timesFrom_insertByTime (Nat.zero_le _) ih

/-- The order by time is stable: the stimuli of each single time stay in their order (R101). -/
theorem filter_sortByTime (t : Nat) (xs : List Stimulus) :
    (sortByTime xs).filter (fun z => z.t == t) = xs.filter (fun z => z.t == t) := by
  induction xs with
  | nil => rfl
  | cons x xs ih =>
    calc (insertByTime x (sortByTime xs)).filter (fun z => z.t == t)
        = (x :: sortByTime xs).filter (fun z => z.t == t) := filter_insertByTime t x _
      _ = (x :: xs).filter (fun z => z.t == t) := by rw [List.filter_cons, List.filter_cons, ih]

theorem scriptStimuli_of_wf {xs : List ScriptLine} (h : scriptWf xs = true) :
    scriptStimuli xs = some (sortByTime (xs.flatMap expandLine)) := if_pos h

/-- Settles O7: the rows of the table, and the stable order of the expanded lines. -/
theorem pseudoOperationsExpandInTimeOrder : Obligations.PseudoOperationsExpandInTimeOrder :=
  ⟨expandLine_pulse_L, expandLine_pulse_R, expandLine_gateIter, expandLine_loopIter,
    fun _ h => ⟨_, scriptStimuli_of_wf h, timesFrom_sortByTime _, fun t => filter_sortByTime t _⟩⟩

end Sys2Proof.Machine

/-! ## The edge operations of the two capture agents (40_capture.md) -/

namespace Sys2Proof

/-! ### The difference of R13 at a sampled time -/

/-- A sample may stand in place of the time it samples, on the left of a difference. -/
theorem wsub_wmod_left (W a b : Nat) : wsub W (wmod W a) b = wsub W a b := by
  unfold wsub wmod
  push_cast
  rw [Int.emod_sub_emod]

@[simp] theorem wsub_zero (W a : Nat) : wsub W a 0 = a % 2 ^ W := by
  rw [wsub, Nat.cast_zero, sub_zero]
  exact_mod_cast Int.toNat_natCast _

/-- `CORR` fits a timing register of a block that can be built (R10). -/
theorem Config.corr_lt_of_wf {k : Config} (h : k.wf = true) : k.corr < 2 ^ k.clkBits := by
  simp only [Config.wf, Bool.and_eq_true, fits_iff] at h
  tauto

end Sys2Proof

namespace Sys2Proof.Machine

/-! ### The capture writers, read by channel and by motor line -/

section Writers

variable (s : State) (c e : Channel) (d : Direction) (v : Nat)

@[simp] theorem writeTs_ref : (s.writeTs c v).ref e = s.ref e := by cases c <;> cases e <;> rfl
@[simp] theorem writeTs_condOf : (s.writeTs c v).condOf e = s.condOf e := by cases c <;> cases e <;> rfl
@[simp] theorem writeTs_snap : (s.writeTs c v).snap e = s.snap e := by cases c <;> cases e <;> rfl
@[simp] theorem writeTs_sel : (s.writeTs c v).sel e d = s.sel e d := by cases c <;> cases e <;> cases d <;> rfl

@[simp] theorem writeRef_ts : (s.writeRef c v).ts e = s.ts e := by cases c <;> cases e <;> rfl
@[simp] theorem writeRef_condOf : (s.writeRef c v).condOf e = s.condOf e := by cases c <;> cases e <;> rfl
@[simp] theorem writeRef_snap : (s.writeRef c v).snap e = s.snap e := by cases c <;> cases e <;> rfl
@[simp] theorem writeRef_sel : (s.writeRef c v).sel e d = s.sel e d := by cases c <;> cases e <;> cases d <;> rfl

@[simp] theorem writeCond_ts : (s.writeCond c v).ts e = s.ts e := by cases c <;> cases e <;> rfl
@[simp] theorem writeCond_ref : (s.writeCond c v).ref e = s.ref e := by cases c <;> cases e <;> rfl
@[simp] theorem writeCond_snap : (s.writeCond c v).snap e = s.snap e := by cases c <;> cases e <;> rfl
@[simp] theorem writeCond_sel : (s.writeCond c v).sel e d = s.sel e d := by cases c <;> cases e <;> cases d <;> rfl

@[simp] theorem condition_cfg : (s.condition c v).cfg = s.cfg := by simp [condition_eq]
@[simp] theorem condition_time : (s.condition c v).time = s.time := by simp [condition_eq]
@[simp] theorem condition_ts : (s.condition c v).ts e = s.ts e := by simp [condition_eq]
@[simp] theorem condition_ref_same : (s.condition c v).ref c = v := by simp [condition_eq]
@[simp] theorem condition_condOf_same : (s.condition c v).condOf c = cond s.cfg v := by simp [condition_eq]

end Writers

/-! ### What a capture step leaves unchanged (R133) -/

/-- Everything outside channel `c` is in `t` as it is in `s`. -/
def CaptureFrame (c : Channel) (s t : State) : Prop := SameCapture c.other s t ∧ SameSequencer s t ∧ SameEnv s t

theorem captureFrame_writeTs (s : State) (c : Channel) (v : Nat) : CaptureFrame c s (s.writeTs c v) := by
  simp [CaptureFrame, SameCapture, SameSequencer, SameGate, SameSnap, SameMotor, SameEnables, SameEnv]

theorem captureFrame_condition (s : State) (c : Channel) (v : Nat) : CaptureFrame c s (s.condition c v) := by
  simp [condition_eq, CaptureFrame, SameCapture, SameSequencer, SameGate, SameSnap, SameMotor, SameEnables, SameEnv]

theorem CaptureFrame.trans {c : Channel} {s t u : State} (hst : CaptureFrame c s t) (htu : CaptureFrame c t u) :
    CaptureFrame c s u := by
  simp_all [CaptureFrame, SameCapture, SameSequencer, SameGate, SameSnap, SameMotor, SameEnables, SameEnv]

/-- An edge operation of channel `c` changes nothing outside the channel. -/
theorem exec_edge_captureFrame {c : Channel} {i : Instr} {s t : State} (hi : i = riseOf c ∨ i = fallOf c)
    (h : exec i s = .next t) : CaptureFrame c s t := by
  cases c <;> rcases hi with rfl | rfl <;> cases h
  · exact captureFrame_writeTs s .L _
  · exact captureFrame_condition s .L _
  · exact (captureFrame_writeTs s .R _).trans (captureFrame_condition _ .R _)
  · exact captureFrame_condition s .R _

/-! ### What a capture step reads (R133) -/

/-- The two states agree on all that a capture step of channel `c` may read. -/
structure CaptureAgree (c : Channel) (s s' : State) : Prop where
  cfg : s'.cfg = s.cfg
  time : s'.time = s.time
  capture : SameCapture c s s'

namespace CaptureAgree

variable {c : Channel} {s s' : State}

theorem now_eq (h : CaptureAgree c s s') : s'.now = s.now := by
  rw [State.now, State.now, h.cfg, h.time]

theorem measured_eq (h : CaptureAgree c s s') : s'.measured c = s.measured c := by
  obtain ⟨hts, -, -⟩ := h.capture
  simp only [State.measured, State.sub, h.cfg, h.now_eq, hts]

theorem writeTs (h : CaptureAgree c s s') (v : Nat) : CaptureAgree c (s.writeTs c v) (s'.writeTs c v) := by
  obtain ⟨-, href, hcond⟩ := h.capture
  exact ⟨by simp [h.cfg], by simp [h.time], by simp [SameCapture, href, hcond]⟩

theorem condition (h : CaptureAgree c s s') (v : Nat) : CaptureAgree c (s.condition c v) (s'.condition c v) := by
  obtain ⟨hts, -, -⟩ := h.capture
  exact ⟨by simp [h.cfg], by simp [h.time], by simp [SameCapture, hts, h.cfg]⟩

theorem rightCommon (h : CaptureAgree .R s s') : CaptureAgree .R s.rightCommon s'.rightCommon := by
  have hv : s'.sub s'.cfg.corr (s'.measured .R) = s.sub s.cfg.corr (s.measured .R) := by
    simp only [State.sub, h.cfg, h.measured_eq]
  rw [State.rightCommon, State.rightCommon, hv]
  exact h.condition _

end CaptureAgree

/-- An edge operation of channel `c` has the same effect on its channel in states that agree on the channel, the
time and the parameters. -/
theorem exec_edge_captureAgree {c : Channel} {i : Instr} {s s' t t' : State} (hi : i = riseOf c ∨ i = fallOf c)
    (hs : CaptureAgree c s s') (h : exec i s = .next t) (h' : exec i s' = .next t') : CaptureAgree c t t' := by
  cases c <;> rcases hi with rfl | rfl <;> cases h <;> cases h'
  · rw [hs.now_eq]
    exact hs.writeTs _
  · rw [hs.measured_eq]
    exact hs.condition _
  · rw [hs.now_eq]
    exact (hs.writeTs _).rightCommon
  · exact hs.rightCommon

/-- Settles O20: the frame and the reads of the edge operations, at each of the two channels. -/
theorem captureStepsStayInTheirChannel : Obligations.CaptureStepsStayInTheirChannel :=
  ⟨fun _ _ _ hi h => exec_edge_captureFrame (c := .L) hi h,
    fun _ _ _ hi h => exec_edge_captureFrame (c := .R) hi h,
    fun _ _ _ _ _ hi hc ht hs h h' => (exec_edge_captureAgree (c := .L) hi ⟨hc, ht, hs⟩ h h').capture,
    fun _ _ _ _ _ hi hc ht hs h h' => (exec_edge_captureAgree (c := .R) hi ⟨hc, ht, hs⟩ h h').capture⟩

/-! ### The values a capture step stores (R123 to R127) -/

/-- The measured time, in the integers: the clock's sample may be replaced by the time itself. -/
theorem measured_cast (s : State) (c : Channel) :
    (s.measured c : Int) = ((s.time : Int) - s.ts c) % 2 ^ s.cfg.clkBits := by
  rw [State.measured, State.sub, State.now, wsub_wmod_left, wsub_cast]
  push_cast
  rfl

/-- With no rise latched since reset the raw sample is measured (R124, corner case (a)). -/
theorem measured_of_ts_eq_zero {s : State} {c : Channel} (h : s.ts c = 0) :
    s.measured c = s.time % 2 ^ s.cfg.clkBits := by
  rw [State.measured, State.sub, State.now, wsub_wmod_left, h, wsub_zero]

/-- The inverted reading of the right channel, in the integers (R125). -/
theorem invertedReading_cast (s : State) :
    (s.sub s.cfg.corr (s.measured .R) : Int) =
      ((s.cfg.corr : Int) - ((s.time : Int) - s.tsR) % 2 ^ s.cfg.clkBits) % 2 ^ s.cfg.clkBits := by
  rw [State.sub, wsub_cast, measured_cast]
  push_cast
  rfl

/-- The failsafe above `ABS_MAX`, with the default parameters (R164). -/
theorem cond_default_of_gt {v : Nat} (h : 2000 < v) : cond Config.default v = 1500 := by
  have hdead : ¬ (1500 < v + 50 ∧ v < 1500 + 50) := by omega
  have hhigh : ¬ (1775 < v ∧ v < 2000) := by omega
  have hlow : ¬ (1000 < v ∧ v < 1150) := by omega
  rw [cond_eq]
  exact (if_neg hdead).trans ((if_neg hhigh).trans ((if_neg hlow).trans (if_pos (.inr h))))

/-- Settles O16. -/
theorem edgeRiseLLatchesTimestamp : Obligations.EdgeRiseLLatchesTimestamp :=
  ⟨by decide, fun s => ⟨_, exec_edgeRiseL s, writeTs_L_tsL .., writeTs_refL .., writeTs_condL ..,
    exec_edge_captureFrame (c := .L) (.inl rfl) (exec_edgeRiseL s)⟩⟩

/-- Settles O17: the conditioned value is the measured time's. -/
theorem edgeFallLMeasuresHighTime : Obligations.EdgeFallLMeasuresHighTime := by
  refine ⟨by decide, fun s => ⟨s.condition .L (s.measured .L), rfl, ?_⟩⟩
  have href : (s.condition .L (s.measured .L)).refL = s.measured .L := condition_ref_same s .L _
  rw [href]
  exact ⟨measured_cast s .L, measured_of_ts_eq_zero (c := .L), condition_condOf_same s .L _, condition_ts s .L .L _,
    exec_edge_captureFrame (c := .L) (.inr rfl) rfl⟩

/-- Settles O18: the rise has just been latched, so nothing is measured and the reading is `CORR`. -/
theorem edgeRiseRReadsCorrection : Obligations.EdgeRiseRReadsCorrection := by
  refine ⟨by decide, fun s => ⟨_, exec_edgeRiseR s, ?_⟩⟩
  have hcorr : s.sub s.cfg.corr 0 = s.cfg.corr % 2 ^ s.cfg.clkBits := wsub_zero ..
  have hdefault : s.cfg = Config.default → s.cfg.corr % 2 ^ s.cfg.clkBits = 3000 := fun h => by rw [h]; decide
  have hneutral : s.cfg = Config.default → cond s.cfg (s.cfg.corr % 2 ^ s.cfg.clkBits) = 1500 := fun h => by
    rw [hdefault h, h]
    exact cond_default_of_gt (by decide)
  have hframe := exec_edge_captureFrame (c := .R) (.inl rfl) (exec_edgeRiseR s)
  rw [hcorr] at hframe ⊢
  refine ⟨by simp [State.now, wmod], by simp, fun hwf => ?_, by simp, fun h => ⟨?_, ?_⟩, hframe⟩
  · simpa using Nat.mod_eq_of_lt (Config.corr_lt_of_wf hwf)
  · simpa using hdefault h
  · simpa using hneutral h

/-- R127, corner case (a), and its complement: a measured time above 3000 wraps the reading past `ABS_MAX`, one of
at most 3000 is taken off 3000. -/
theorem inverted_emod_of_range {m : Int} (h0 : 0 ≤ m) (hm : m < 2 ^ 32) :
    (3000 < m → (3000 - m) % 2 ^ 32 = 2 ^ 32 - (m - 3000)) ∧ (m ≤ 3000 → (3000 - m) % 2 ^ 32 = 3000 - m) := by
  omega

/-- Settles O19: the default cases are the two ranges of the measured time. -/
theorem edgeFallRReadsInverted : Obligations.EdgeFallRReadsInverted := by
  refine ⟨by decide, fun s => ⟨s.rightCommon, rfl, ?_⟩⟩
  have href : (s.rightCommon.refR : Int) =
      ((s.cfg.corr : Int) - ((s.time : Int) - s.tsR) % 2 ^ s.cfg.clkBits) % 2 ^ s.cfg.clkBits :=
    (congrArg Nat.cast (condition_ref_same s .R _)).trans (invertedReading_cast s)
  have hcond : s.rightCommon.condR = cond s.cfg s.rightCommon.refR := rfl
  refine ⟨href, hcond, condition_ts s .R .R _, fun hdefault => ?_, exec_edge_captureFrame (c := .R) (.inr rfl) rfl⟩
  rw [hdefault] at href hcond
  have hm := Int.emod_lt_of_pos ((s.time : Int) - s.tsR) (by decide : (0 : Int) < 2 ^ 32)
  have h0 := Int.emod_nonneg ((s.time : Int) - s.tsR) (by decide : (2 ^ 32 : Int) ≠ 0)
  obtain ⟨habove, hbelow⟩ := inverted_emod_of_range h0 hm
  refine ⟨fun h => ?_, fun h => href.trans (hbelow h)⟩
  have hwrap := href.trans (habove h)
  exact ⟨hwrap, hcond.trans (cond_default_of_gt (by omega))⟩

end Sys2Proof.Machine

/-! ## The startup gate and the sequencer's dispatch (41_gate.md) -/

namespace Sys2Proof.Machine

/-! ### SEQ_STEP (R140) -/

/-- A SEQ_STEP that completes performed the micro-operation that its phase decodes to. -/
theorem exec_seqStep_decoded {s t : State} (h : exec .seqStep s = .next t) :
    ∃ m, decodePhase s.seqPhase = .ok m ∧ exec m s = .next t := by
  rcases seqStep_cases h with h | h | h | h | h | h | h | h | h | h | h <;>
    exact ⟨_, (congrArg decodePhase h.1).trans rfl, h.2⟩

theorem seqPhase_le_of_decodePhase {p : BitVec 4} {i : Instr} (h : decodePhase p = .ok i) : p.toNat ≤ 10 := by
  by_contra hp
  rw [decodePhase_reserved (by omega)] at h
  cases h

/-- Settles O12: a selected phase is not reserved, so the SEQ_STEP completes, and what it performed is what the
phase decodes to. -/
theorem seqStepPerformsSelectedMicroOperation : Obligations.SeqStepPerformsSelectedMicroOperation := by
  refine ⟨by decide, fun s i hi => ?_, fun _ h => exec_seqStep_reserved h⟩
  obtain ⟨t, ht⟩ := exec_seqStep_next (seqPhase_le_of_decodePhase hi)
  obtain ⟨m, hm, he⟩ := exec_seqStep_decoded ht
  obtain rfl : i = m := Except.ok.inj (hi.symm.trans hm)
  exact ⟨ht.trans he.symm, t, ht⟩

/-! ### Starting the gate and reading for it (R141 to R143) -/

/-- Settles O35: three register writes, of which two store the clock's sample. -/
theorem gateStartLatchesBothOrigins : Obligations.GateStartLatchesBothOrigins :=
  ⟨by decide, fun s => ⟨_, exec_gateStart s, rfl, rfl, writePhase_seqPhase .., rfl, rfl, rfl, fun _ => rfl,
    fun _ => rfl, ⟨rfl, rfl⟩, rfl, ⟨⟨rfl, rfl, rfl⟩, rfl, rfl, rfl⟩, rfl, rfl, rfl⟩⟩

/-- A snapshot copies the conditioned value of its channel, moves on to the phase `p`, and changes nothing else. -/
theorem takeSnapshot_spec (s : State) (c : Channel) (p : BitVec 4) :
    (s.takeSnapshot c p).snap c = s.condOf c ∧ (s.takeSnapshot c p).seqPhase = p ∧
    SameSnap c.other s (s.takeSnapshot c p) ∧ SameGate s (s.takeSnapshot c p) ∧
    SameMotor .L s (s.takeSnapshot c p) ∧ SameMotor .R s (s.takeSnapshot c p) ∧
    SameEnables s (s.takeSnapshot c p) ∧ (s.takeSnapshot c p).diag = s.diag ∧
    SameCaptures s (s.takeSnapshot c p) ∧ SameEnv s (s.takeSnapshot c p) := by
  cases c <;>
    exact ⟨rfl, rfl, rfl, ⟨rfl, rfl, rfl⟩, fun _ => rfl, fun _ => rfl, ⟨rfl, rfl⟩, rfl,
      ⟨⟨rfl, rfl, rfl⟩, rfl, rfl, rfl⟩, rfl, rfl, rfl⟩

/-- Settles O36: the snapshot of either channel. -/
theorem gateReadsCopyConditionedValue : Obligations.GateReadsCopyConditionedValue :=
  ⟨by decide, by decide, fun s => ⟨_, exec_gateReadL s, takeSnapshot_spec s .L phGReadR⟩,
    fun s => ⟨_, exec_gateReadR s, takeSnapshot_spec s .R phGEval⟩⟩

/-! ### What an evaluation leaves unchanged (R144, R145) -/

/-- `t` has from `s` everything that the evaluation of the gate does not write. -/
def EvalFrame (s t : State) : Prop :=
  t.gateT0 = s.gateT0 ∧ SameSnap .L s t ∧ SameSnap .R s t ∧ SameMotor .L s t ∧ SameMotor .R s t ∧
    SameCaptures s t ∧ SameEnv s t

theorem EvalFrame.trans {s t u : State} (hst : EvalFrame s t) (htu : EvalFrame t u) : EvalFrame s u := by
  simp_all [EvalFrame, SameSnap, SameMotor, SameCaptures, SameCapture, SameEnv]

theorem evalFrame_emit (s : State) (r : DiagRecord) : EvalFrame s (s.emit r) :=
  ⟨rfl, rfl, rfl, fun _ => rfl, fun _ => rfl, ⟨⟨rfl, rfl, rfl⟩, rfl, rfl, rfl⟩, rfl, rfl, rfl⟩

theorem evalFrame_writeStreakT0 (s : State) (v : Nat) : EvalFrame s (s.writeStreakT0 v) :=
  ⟨rfl, rfl, rfl, fun _ => rfl, fun _ => rfl, ⟨⟨rfl, rfl, rfl⟩, rfl, rfl, rfl⟩, rfl, rfl, rfl⟩

theorem evalFrame_writePhase (s : State) (p : BitVec 4) : EvalFrame s (s.writePhase p) :=
  ⟨rfl, rfl, rfl, fun _ => rfl, fun _ => rfl, ⟨⟨rfl, rfl, rfl⟩, rfl, rfl, rfl⟩, rfl, rfl, rfl⟩

theorem evalFrame_release (s : State) (v : BitVec 2) : EvalFrame s (s.release v) :=
  ⟨rfl, rfl, rfl, fun _ => rfl, fun _ => rfl, ⟨⟨rfl, rfl, rfl⟩, rfl, rfl, rfl⟩, rfl, rfl, rfl⟩

theorem evalFrame_gateObserve (s : State) : EvalFrame s s.gateObserve := by
  rcases gateObserve_cases s with ⟨-, ho⟩ | ⟨-, ho⟩ <;> rw [ho]
  · exact evalFrame_emit s _
  · exact (evalFrame_emit s _).trans (evalFrame_writeStreakT0 _ _)

/-- Observing does not release: `CAUSE` and the enables wait for the verdict. -/
theorem gateObserve_keeps_release (s : State) : s.gateObserve.cause = s.cause ∧ SameEnables s s.gateObserve := by
  rcases gateObserve_cases s with ⟨-, ho⟩ | ⟨-, ho⟩ <;> rw [ho] <;> exact ⟨rfl, rfl, rfl⟩

/-! ### The pattern and the verdict, in the terms of R144 -/

/-- The pattern of R144 holds for the two snapshots. -/
def PatternHolds (s : State) : Prop := s.snapL < s.cfg.gateLLt ∧ s.snapR > s.cfg.gateRGt

/-- `n` µs or more, modulo `2^W`, have passed since the sample `v`. -/
def Elapsed (s : State) (n v : Nat) : Prop := (n : Int) ≤ ((s.time : Int) - v) % 2 ^ s.cfg.clkBits

theorem gatePattern_iff (s : State) : gatePattern s.cfg s.snapL s.snapR = true ↔ PatternHolds s := by
  simp [gatePattern, PatternHolds]

/-- The time since the sample `v`, in the integers: the clock's sample may be replaced by the time itself. -/
theorem sub_now_cast (s : State) (v : Nat) :
    (s.sub s.now v : Int) = ((s.time : Int) - v) % 2 ^ s.cfg.clkBits := by
  rw [State.sub, State.now, wsub_wmod_left, wsub_cast]
  push_cast
  rfl

theorem le_sub_now_iff (s : State) (n v : Nat) : n ≤ s.sub s.now v ↔ Elapsed s n v := by
  rw [Elapsed, ← sub_now_cast, Nat.cast_le]

/-- With the pattern true an evaluation reports `INIT` and keeps the streak's origin. -/
theorem gateObserve_of_pattern {s : State} (h : PatternHolds s) :
    s.gateObserve = s.emit (.gateStatus .INIT s.snapL s.snapR) := by
  have hp : gatePattern s.cfg s.snapL s.snapR = true := (gatePattern_iff s).mpr h
  rcases gateObserve_cases s with ⟨-, ho⟩ | ⟨hn, -⟩
  · exact ho
  · exact absurd (hn.symm.trans hp) (by decide)

/-- With the pattern false an evaluation reports `ERROR` and moves the streak's origin to its own time. -/
theorem gateObserve_of_not_pattern {s : State} (h : ¬ PatternHolds s) :
    s.gateObserve = (s.emit (.gateStatus .ERROR s.snapL s.snapR)).writeStreakT0 s.now := by
  rcases gateObserve_cases s with ⟨hp, -⟩ | ⟨-, ho⟩
  · exact absurd ((gatePattern_iff s).mp hp) h
  · exact ho

/-- The verdict is one decision list: a complete streak, else the timeout, else no release. -/
theorem gateVerdict_spec (s : State) :
    (PatternHolds s ∧ Elapsed s s.cfg.gateWindow s.streakT0 → s.gateVerdict = causePattern) ∧
    (¬ (PatternHolds s ∧ Elapsed s s.cfg.gateWindow s.streakT0) → Elapsed s s.cfg.gateTimeout s.gateT0 →
      s.gateVerdict = causeTimeout) ∧
    (¬ (PatternHolds s ∧ Elapsed s s.cfg.gateWindow s.streakT0) → ¬ Elapsed s s.cfg.gateTimeout s.gateT0 →
      s.gateVerdict = causeNone) := by
  have hcases := gateVerdict_cases s
  simp only [gatePattern_iff, le_sub_now_iff] at hcases
  rcases hcases with ⟨hv, hp, hw⟩ | ⟨hv, ht, hn⟩ | ⟨hv, ht, hn⟩
  · exact ⟨fun _ => hv, fun h => absurd ⟨hp, hw⟩ h, fun h => absurd ⟨hp, hw⟩ h⟩
  · exact ⟨fun h => absurd h hn, fun _ _ => hv, fun _ h => absurd ht h⟩
  · exact ⟨fun h => absurd h hn, fun _ h => absurd h ht, fun _ _ => hv⟩

/-! ### The evaluation as a whole (R144, R145) -/

/-- What GATE_EVAL answers, said of the observation and the verdict: it always completes, keeps what was observed,
releases with a verdict as the cause, and goes back to phase 1 without one. -/
theorem exec_gateEval_next (s : State) : ∃ t, exec .gateEval s = .next t ∧
    t.diag = s.gateObserve.diag ∧ t.streakT0 = s.gateObserve.streakT0 ∧
    (s.gateVerdict ≠ causeNone → t.cause = s.gateVerdict ∧ t.enL = true ∧ t.enR = true ∧ t.seqPhase = phLReadL) ∧
    (s.gateVerdict = causeNone → t.cause = s.cause ∧ SameEnables s t ∧ t.seqPhase = phGReadL) ∧
    EvalFrame s t := by
  by_cases hv : s.gateVerdict = causeNone
  · obtain ⟨hcause, henables⟩ := gateObserve_keeps_release s
    exact ⟨_, exec_gateEval_none s hv, rfl, rfl, fun h => absurd hv h, fun _ => ⟨hcause, henables, rfl⟩,
      (evalFrame_gateObserve s).trans (evalFrame_writePhase _ _)⟩
  · exact ⟨_, exec_gateEval_release s hv, rfl, rfl, fun _ => ⟨rfl, rfl, rfl, rfl⟩, fun h => absurd h hv,
      (evalFrame_gateObserve s).trans (evalFrame_release _ _)⟩

/-- Settles O37: the observation gives the first two clauses, the verdict the other three. -/
theorem gateEvalDecidesRelease : Obligations.GateEvalDecidesRelease := by
  refine ⟨by decide, fun s => ?_⟩
  obtain ⟨t, ht, hdiag, hstreak, hrelease, hback, hframe⟩ := exec_gateEval_next s
  obtain ⟨hpattern, htimeout, hnone⟩ := gateVerdict_spec s
  refine ⟨t, ht, fun hp => ?_, fun hp => ?_, fun h => ?_, fun ⟨hn, h⟩ => ?_, fun ⟨hn, h⟩ => hback (hnone hn h), hframe⟩
  · rw [hdiag, hstreak, gateObserve_of_pattern hp]
    exact ⟨rfl, rfl⟩
  · rw [hdiag, hstreak, gateObserve_of_not_pattern hp]
    exact ⟨rfl, rfl⟩
  · rw [hpattern h] at hrelease
    exact hrelease (by decide)
  · rw [htimeout hn h] at hrelease
    exact hrelease (by decide)

end Sys2Proof.Machine

/-! ## The mapper (43_mapper.md) -/

namespace Sys2Proof.Machine

/-! ### Direction, magnitude and duty (R180 to R182) -/

section Functions

variable {k : Config} {v : Nat}

theorem dir_of_gt (h : v > k.neutral) : dir k v = .forward := if_pos h

theorem dir_of_le (h : v ≤ k.neutral) : dir k v = .backward := if_neg (Nat.not_lt.mpr h)

@[simp] theorem mag_neutral (k : Config) : mag k k.neutral = 0 := if_pos rfl

theorem mag_of_gt (h : v > k.neutral) : mag k v = (v : Int) - k.neutral := by
  rw [mag, if_neg h.ne', if_pos h]

theorem mag_of_lt (h : v < k.neutral) : mag k v = ((k.corr : Int) - v) - k.neutral := by
  rw [mag, if_neg h.ne, if_neg h.asymm]

@[simp] theorem duty_neutral (k : Config) : duty k k.neutral = 0 := if_pos rfl

theorem duty_of_ne (h : v ≠ k.neutral) : duty k v = min k.dutyMax (dutyQuotient k (mag k v)) := if_neg h

/-- Where R15 gives `div` a meaning, the quotient of the duty is the integers' floor division. -/
theorem dutyQuotient_cast {m : Int} (hm : 0 ≤ m) (hspan : 0 < k.span) :
    (dutyQuotient k m : Int) = m * k.dutyMax / k.span :=
  floorDiv_eq (mul_nonneg hm (Int.natCast_nonneg _)) hspan

end Functions

/-- Settles O29: the two branches of `Dir`, and three of its values. -/
theorem directionFollowsNeutral : Obligations.DirectionFollowsNeutral := by
  refine fun c v => ⟨fun h => ?_, fun h => ?_, dir_of_le (Nat.zero_le _), by decide, by decide⟩
  · rw [dir_of_gt h]
    exact ⟨rfl, rfl⟩
  · rw [dir_of_le h]
    exact ⟨rfl, rfl⟩

/-- Settles O30: the branches of `Mag` and of `Duty`; off neutral the magnitude's sign is a premise, so the quotient
is a floor division. -/
theorem dutyIsFloorOfScaledMagnitude : Obligations.DutyIsFloorOfScaledMagnitude := by
  refine fun c v => ⟨?_, mag_of_gt, mag_of_lt, ?_, fun hne hmag hspan => ?_⟩
  · rintro rfl
    exact mag_neutral c
  · rintro rfl
    exact duty_neutral c
  · rw [duty_of_ne hne, Nat.cast_min, dutyQuotient_cast hmag hspan]

/-! ### Writing one line of a motor (R184, R186 to R189) -/

@[simp] theorem writePhase_sel (s : State) (p : BitVec 4) (c : Channel) (d : Direction) :
    (s.writePhase p).sel c d = s.sel c d := by
  cases c <;> cases d <;> rfl

/-- Writing a line and moving on: the line holds the value, the motor's other line is kept. -/
theorem writeLine_writePhase_sel (s : State) (c : Channel) (d : Direction) (v : Nat) (p : BitVec 4) :
    ((s.writeLine c d v).writePhase p).sel c d = v ∧
    ((s.writeLine c d v).writePhase p).sel c d.opposite = s.sel c d.opposite := by
  simp only [writePhase_sel, writeLine_sel_same, writeLine_sel_opposite, and_self]

/-- `t` has from `s` everything but the phase and the two lines of motor `c`. -/
def MotorFrame (c : Channel) (s t : State) : Prop :=
  SameMotor c.other s t ∧ SameGate s t ∧ SameSnap .L s t ∧ SameSnap .R s t ∧ SameEnables s t ∧ t.diag = s.diag ∧
    SameCaptures s t ∧ SameEnv s t

theorem motorFrame_writeLine_writePhase (s : State) (c : Channel) (d : Direction) (v : Nat) (p : BitVec 4) :
    MotorFrame c s ((s.writeLine c d v).writePhase p) := by
  refine ⟨fun e => by simp, ?_⟩
  cases c <;> cases d <;>
    exact ⟨⟨rfl, rfl, rfl⟩, rfl, rfl, ⟨rfl, rfl⟩, rfl, ⟨⟨rfl, rfl, rfl⟩, rfl, rfl, rfl⟩, rfl, rfl, rfl⟩

/-- MAP_ZERO of either motor: the line not selected is 0, the selected one and everything else are kept. -/
theorem zeroOther_spec (s : State) (c : Channel) (p : BitVec 4) :
    (s.zeroOther c p).seqPhase = p ∧
    (s.snap c > s.cfg.neutral →
      (s.zeroOther c p).sel c .backward = 0 ∧ (s.zeroOther c p).sel c .forward = s.sel c .forward) ∧
    (s.snap c ≤ s.cfg.neutral →
      (s.zeroOther c p).sel c .forward = 0 ∧ (s.zeroOther c p).sel c .backward = s.sel c .backward) ∧
    MotorFrame c s (s.zeroOther c p) := by
  refine ⟨rfl, fun h => ?_, fun h => ?_, motorFrame_writeLine_writePhase ..⟩
  · rw [zeroOther_eq, dir_of_gt h]
    exact writeLine_writePhase_sel s c .backward 0 p
  · rw [zeroOther_eq, dir_of_le h]
    exact writeLine_writePhase_sel s c .forward 0 p

/-- Settles O33: the zeroing of either motor. -/
theorem mapZeroTurnsOffOtherLine : Obligations.MapZeroTurnsOffOtherLine :=
  ⟨by decide, by decide, fun s => ⟨_, exec_mapZeroL s, zeroOther_spec s .L phDriveL⟩,
    fun s => ⟨_, exec_mapZeroR s, zeroOther_spec s .R phDriveR⟩⟩

/-- MAP_DRIVE of either motor: the selected line takes the duty, the other one and everything else are kept. -/
theorem driveSelected_spec (s : State) (c : Channel) (p : BitVec 4) :
    (s.driveSelected c p).seqPhase = p ∧
    (s.snap c > s.cfg.neutral → (s.driveSelected c p).sel c .forward = duty s.cfg (s.snap c) ∧
      (s.driveSelected c p).sel c .backward = s.sel c .backward) ∧
    (s.snap c ≤ s.cfg.neutral → (s.driveSelected c p).sel c .backward = duty s.cfg (s.snap c) ∧
      (s.driveSelected c p).sel c .forward = s.sel c .forward) ∧
    MotorFrame c s (s.driveSelected c p) := by
  refine ⟨rfl, fun h => ?_, fun h => ?_, motorFrame_writeLine_writePhase ..⟩
  · rw [driveSelected_eq, dir_of_gt h]
    exact writeLine_writePhase_sel s c .forward _ p
  · rw [driveSelected_eq, dir_of_le h]
    exact writeLine_writePhase_sel s c .backward _ p

/-- The corner cases of R187 and R189: neutral writes 0 to line B, and a channel never conditioned full backward. -/
theorem driveSelected_default {s : State} (hcfg : s.cfg = Config.default) (c : Channel) (p : BitVec 4) :
    (s.snap c = 1500 → (s.driveSelected c p).sel c .backward = 0) ∧
    (s.snap c = 0 → (s.driveSelected c p).sel c .backward = 255) := by
  obtain ⟨-, -, hbackward, -⟩ := driveSelected_spec s c p
  rw [hcfg] at hbackward
  refine ⟨fun h => ?_, fun h => ?_⟩ <;> rw [h] at hbackward
  · obtain ⟨hneutral, -⟩ := hbackward (by decide)
    exact hneutral.trans (by decide)
  · obtain ⟨hnever, -⟩ := hbackward (by decide)
    exact hnever.trans (by decide)

/-- Settles O34: the driving of either motor, with the two corner cases. -/
theorem mapDriveWritesDutyToSelectedLine : Obligations.MapDriveWritesDutyToSelectedLine := by
  refine ⟨by decide, by decide, fun s => ?_, fun s => ?_⟩
  · obtain ⟨hphase, hforward, hbackward, hframe⟩ := driveSelected_spec s .L phZeroR
    exact ⟨_, exec_mapDriveL s, hphase, hforward, hbackward, fun h => driveSelected_default h .L phZeroR, hframe⟩
  · obtain ⟨hphase, hforward, hbackward, hframe⟩ := driveSelected_spec s .R phLDiag
    exact ⟨_, exec_mapDriveR s, hphase, hforward, hbackward, fun h => driveSelected_default h .R phLDiag, hframe⟩

end Sys2Proof.Machine

/-! ## The control loop's own micro-operations (44_control_loop.md) -/

namespace Sys2Proof.Machine

/-- Settles O42: the snapshot of either channel, as for the gate's reads. -/
theorem loopReadsCopyConditionedValue : Obligations.LoopReadsCopyConditionedValue :=
  ⟨by decide, by decide, fun s => ⟨_, exec_loopReadL s, takeSnapshot_spec s .L phLReadR⟩,
    fun s => ⟨_, exec_loopReadR s, takeSnapshot_spec s .R phZeroL⟩⟩

/-- Appending a record and moving on to the phase `p`: beyond what an evaluation of the gate leaves unchanged, the
streak's origin, the cause and the enables stay too. -/
theorem emit_writePhase_spec (s : State) (r : DiagRecord) (p : BitVec 4) :
    ((s.emit r).writePhase p).diag = s.diag ++ [r] ∧ ((s.emit r).writePhase p).seqPhase = p ∧
    SameGate s ((s.emit r).writePhase p) ∧ SameEnables s ((s.emit r).writePhase p) ∧
    EvalFrame s ((s.emit r).writePhase p) :=
  ⟨by rw [writePhase_diag, emit_diag], writePhase_seqPhase .., ⟨rfl, rfl, rfl⟩, ⟨rfl, rfl⟩,
    (evalFrame_emit s r).trans (evalFrame_writePhase _ p)⟩

/-- Settles O43: one record of the two snapshots, then phase 4. -/
theorem loopDiagReportsSnapshots : Obligations.LoopDiagReportsSnapshots := by
  refine ⟨by decide, fun s => ?_⟩
  obtain ⟨hdiag, hphase, hgate, henables, -, hsnapL, hsnapR, hmotorL, hmotorR, hcaptures, henv⟩ :=
    emit_writePhase_spec s (.loopReport s.snapL s.snapR) phLReadL
  exact ⟨_, exec_loopDiag s, hdiag, hphase, hsnapL, hsnapR, hgate, hmotorL, hmotorR, henables, hcaptures, henv⟩

end Sys2Proof.Machine

/-! ## RESET (70_reset_and_hazards.md R250) -/

namespace Sys2Proof.Machine

/-! The channel selectors on `State.initial`: each reads the register of R55 that belongs to its channel. -/

section InitialChannels

variable (cfg : Config) (T : Nat) (xs : List Stimulus)

@[simp] theorem initial_ts (c : Channel) : (State.initial cfg T xs).ts c = 0 := by
  cases c
  · exact initial_tsL cfg T xs
  · exact initial_tsR cfg T xs

@[simp] theorem initial_ref (c : Channel) : (State.initial cfg T xs).ref c = 0 := by
  cases c
  · exact initial_refL cfg T xs
  · exact initial_refR cfg T xs

@[simp] theorem initial_condOf (c : Channel) : (State.initial cfg T xs).condOf c = 0 := by
  cases c
  · exact initial_condL cfg T xs
  · exact initial_condR cfg T xs

@[simp] theorem initial_snap (c : Channel) : (State.initial cfg T xs).snap c = 0 := by
  cases c
  · exact initial_snapL cfg T xs
  · exact initial_snapR cfg T xs

@[simp] theorem initial_sel (c : Channel) (d : Direction) : (State.initial cfg T xs).sel c d = 0 := by
  cases c <;> cases d
  · exact initial_pwmLA cfg T xs
  · exact initial_pwmLB cfg T xs
  · exact initial_pwmRA cfg T xs
  · exact initial_pwmRB cfg T xs

end InitialChannels

/-- Settles O57: RESET answers the initial state of the block's own parameters, time and stimuli (`exec_reset`),
whose registers are at the values of R55 whatever the state was. -/
theorem resetRestoresEveryRegister : Obligations.ResetRestoresEveryRegister := by
  refine ⟨by decide, fun s => ⟨_, exec_reset s, fun c => ?_, ?_⟩⟩
  · exact ⟨initial_ts .., initial_ref .., initial_condOf .., initial_snap .., fun d => initial_sel ..⟩
  · exact ⟨initial_gateT0 .., initial_streakT0 .., initial_seqPhase .., initial_cause .., initial_enL ..,
      initial_enR .., initial_diag ..⟩

end Sys2Proof.Machine

/-! ## One step, told by the agent that takes it (30_encoding.md R90, 60_exceptions.md R233)

The layer below the statements about runs: what a stimulus can do to the block (`Performed`), what one move of the
sequencer can do (`SeqMove`), and the inductions over runs that follow. -/

namespace Sys2Proof.Machine

/-! ### The sequencer's writers, read by channel and by motor line -/

section SequencerWriters

variable (s : State) (c e : Channel) (d : Direction) (v : Nat) (p : BitVec 4) (q : BitVec 2) (b : Bool)
variable (r : DiagRecord) (x : Stimulus) (xs : List Stimulus)

@[simp] theorem writeSnap_ts : (s.writeSnap c v).ts e = s.ts e := by cases c <;> rfl
@[simp] theorem writeSnap_ref : (s.writeSnap c v).ref e = s.ref e := by cases c <;> rfl
@[simp] theorem writeSnap_condOf : (s.writeSnap c v).condOf e = s.condOf e := by cases c <;> rfl
@[simp] theorem writeSnap_sel : (s.writeSnap c v).sel e d = s.sel e d := by cases c <;> rfl

@[simp] theorem writeLine_ts : (s.writeLine c d v).ts e = s.ts e := by cases c <;> cases d <;> rfl
@[simp] theorem writeLine_ref : (s.writeLine c d v).ref e = s.ref e := by cases c <;> cases d <;> rfl
@[simp] theorem writeLine_condOf : (s.writeLine c d v).condOf e = s.condOf e := by cases c <;> cases d <;> rfl
@[simp] theorem writeLine_snap : (s.writeLine c d v).snap e = s.snap e := by cases c <;> cases d <;> rfl

@[simp] theorem writePhase_snap : (s.writePhase p).snap e = s.snap e := rfl

@[simp] theorem writeCause_sel : (s.writeCause q).sel e d = s.sel e d := rfl
@[simp] theorem writeCause_snap : (s.writeCause q).snap e = s.snap e := rfl
@[simp] theorem writeEnables_snap : (s.writeEnables b).snap e = s.snap e := rfl
@[simp] theorem writeEnables_sel : (s.writeEnables b).sel e d = s.sel e d := rfl

@[simp] theorem advance_ts : (s.advance x xs).ts e = s.ts e := rfl
@[simp] theorem advance_now : (s.advance x xs).now = wmod s.cfg.clkBits x.t := rfl

end SequencerWriters

/-! ### One move of the sequencer (R140) -/

/-- What a SEQ_STEP that completes can do: one row of the phase table, with the two exits of GATE_EVAL apart. -/
inductive SeqMove (s : State) : State → Prop
  | gateStart (hp : s.seqPhase = phGStart) :
      SeqMove s (((s.writeGateT0 s.now).writeStreakT0 s.now).writePhase phGReadL)
  | gateReadL (hp : s.seqPhase = phGReadL) : SeqMove s (s.takeSnapshot .L phGReadR)
  | gateReadR (hp : s.seqPhase = phGReadR) : SeqMove s (s.takeSnapshot .R phGEval)
  | gateBack (hp : s.seqPhase = phGEval) (hv : s.gateVerdict = causeNone) :
      SeqMove s (s.gateObserve.writePhase phGReadL)
  | gateRelease (hp : s.seqPhase = phGEval) (hv : s.gateVerdict ≠ causeNone) :
      SeqMove s (s.gateObserve.release s.gateVerdict)
  | loopReadL (hp : s.seqPhase = phLReadL) : SeqMove s (s.takeSnapshot .L phLReadR)
  | loopReadR (hp : s.seqPhase = phLReadR) : SeqMove s (s.takeSnapshot .R phZeroL)
  | mapZeroL (hp : s.seqPhase = phZeroL) : SeqMove s (s.zeroOther .L phDriveL)
  | mapDriveL (hp : s.seqPhase = phDriveL) : SeqMove s (s.driveSelected .L phZeroR)
  | mapZeroR (hp : s.seqPhase = phZeroR) : SeqMove s (s.zeroOther .R phDriveR)
  | mapDriveR (hp : s.seqPhase = phDriveR) : SeqMove s (s.driveSelected .R phLDiag)
  | loopDiag (hp : s.seqPhase = phLDiag) : SeqMove s ((s.emit (.loopReport s.snapL s.snapR)).writePhase phLReadL)

/-- A GATE_EVAL in its phase takes one of its two exits. -/
theorem seqMove_of_gateEval {s t : State} (hp : s.seqPhase = phGEval) (h : exec .gateEval s = .next t) :
    SeqMove s t := by
  by_cases hv : s.gateVerdict = causeNone
  · rw [exec_gateEval_none s hv] at h
    cases h
    exact .gateBack hp hv
  · rw [exec_gateEval_release s hv] at h
    cases h
    exact .gateRelease hp hv

theorem seqMove_of_exec {s t : State} (h : exec .seqStep s = .next t) : SeqMove s t := by
  rcases seqStep_cases h with ⟨hp, h⟩ | ⟨hp, h⟩ | ⟨hp, h⟩ | ⟨hp, h⟩ | ⟨hp, h⟩ | ⟨hp, h⟩ | ⟨hp, h⟩ | ⟨hp, h⟩ |
    ⟨hp, h⟩ | ⟨hp, h⟩ | ⟨hp, h⟩
  case inr.inr.inr.inl => exact seqMove_of_gateEval hp h
  all_goals cases h
  · exact .gateStart hp
  · exact .gateReadL hp
  · exact .gateReadR hp
  · exact .loopReadL hp
  · exact .loopReadR hp
  · exact .mapZeroL hp
  · exact .mapDriveL hp
  · exact .mapZeroR hp
  · exact .mapDriveR hp
  · exact .loopDiag hp

/-- The sequencer writes no capture register, no parameter and no input. -/
theorem SeqMove.frame {s t : State} (h : SeqMove s t) : SameCaptures s t ∧ SameEnv s t := by
  cases h with
  | gateStart hp => exact ⟨⟨⟨rfl, rfl, rfl⟩, rfl, rfl, rfl⟩, rfl, rfl, rfl⟩
  | gateReadL hp | gateReadR hp | loopReadL hp | loopReadR hp =>
    obtain ⟨-, -, -, -, -, -, -, -, hcaptures, henv⟩ := takeSnapshot_spec s _ _
    exact ⟨hcaptures, henv⟩
  | gateBack hp hv =>
    obtain ⟨-, -, -, -, -, hcaptures, henv⟩ := (evalFrame_gateObserve s).trans (evalFrame_writePhase _ phGReadL)
    exact ⟨hcaptures, henv⟩
  | gateRelease hp hv =>
    obtain ⟨-, -, -, -, -, hcaptures, henv⟩ := (evalFrame_gateObserve s).trans (evalFrame_release _ s.gateVerdict)
    exact ⟨hcaptures, henv⟩
  | mapZeroL hp | mapZeroR hp =>
    obtain ⟨-, -, -, -, -, -, -, -, -, hcaptures, henv⟩ := zeroOther_spec s _ _
    exact ⟨hcaptures, henv⟩
  | mapDriveL hp | mapDriveR hp =>
    obtain ⟨-, -, -, -, -, -, -, -, -, hcaptures, henv⟩ := driveSelected_spec s _ _
    exact ⟨hcaptures, henv⟩
  | loopDiag hp =>
    obtain ⟨-, -, -, -, -, -, -, -, -, hcaptures, henv⟩ := emit_writePhase_spec s (.loopReport s.snapL s.snapR) phLReadL
    exact ⟨hcaptures, henv⟩

/-- In the loop the sequencer writes no gate register and no enable. -/
theorem SeqMove.loop_frame {s t : State} (h : SeqMove s t) (h4 : 4 ≤ s.seqPhase.toNat) :
    SameGate s t ∧ SameEnables s t := by
  cases h with
  | gateStart hp | gateReadL hp | gateReadR hp | gateBack hp | gateRelease hp => simp [hp] at h4
  | loopReadL hp | loopReadR hp =>
    obtain ⟨-, -, -, hgate, -, -, henables, -⟩ := takeSnapshot_spec s _ _
    exact ⟨hgate, henables⟩
  | mapZeroL hp | mapZeroR hp =>
    obtain ⟨-, -, -, -, hgate, -, -, henables, -⟩ := zeroOther_spec s _ _
    exact ⟨hgate, henables⟩
  | mapDriveL hp | mapDriveR hp =>
    obtain ⟨-, -, -, -, hgate, -, -, henables, -⟩ := driveSelected_spec s _ _
    exact ⟨hgate, henables⟩
  | loopDiag hp => exact ⟨⟨rfl, rfl, rfl⟩, rfl, rfl⟩

/-! ### What a stimulus does -/

/-- What the stimulus `x` can do to the state `u` in which it is performed: an edge event of one channel, a move of
the sequencer, or RESET (R97, R233). -/
inductive Performed (x : Stimulus) (u : State) : State → Prop
  | edge {t : State} (c : Channel) (i : Instr) (hw : edgeWord c x.word) (hi : i = riseOf c ∨ i = fallOf c)
      (hd : decodeByte x.word = .ok i) (he : exec i u = .next t) : Performed x u t
  | seq {t : State} (hw : x.word = 0x40#8) (hm : SeqMove u t) : Performed x u t
  | reset (hw : x.word = 0x80#8) : Performed x u u.resetBlock

theorem performed_of_exec {x : Stimulus} {i : Instr} {u t : State} (hd : decodeByte x.word = .ok i)
    (he : exec i u = .next t) : Performed x u t := by
  rcases decodeByte_cases hd with ⟨hw, rfl⟩ | ⟨hw, rfl⟩ | ⟨hw, rfl⟩ | ⟨hw, rfl⟩ | ⟨hw, rfl⟩ | ⟨hw, rfl⟩
  · exact .edge .L _ (.inl hw) (.inr rfl) hd he
  · exact .edge .L _ (.inr hw) (.inl rfl) hd he
  · exact .edge .R _ (.inl hw) (.inr rfl) hd he
  · exact .edge .R _ (.inr hw) (.inl rfl) hd he
  · exact .seq hw (seqMove_of_exec he)
  · cases he
    exact .reset hw

theorem edgeWord_ne_seq {c : Channel} {w : BitVec 8} (h : edgeWord c w) : w ≠ 0x40#8 := by
  cases c <;> rcases h with rfl | rfl <;> decide

/-- The SEQ_STEP word is performed by the sequencer. -/
theorem Performed.seqMove {x : Stimulus} {u t : State} (h : Performed x u t) (hw : x.word = 0x40#8) : SeqMove u t := by
  cases h with
  | edge c i hedge hi hd he => exact absurd hw (edgeWord_ne_seq hedge)
  | seq hseq hm => exact hm
  | reset hreset => exact absurd (hw.symm.trans hreset) (by decide)

/-- An edge event leaves the sequencer's registers, the parameters and the inputs as they are. -/
theorem edge_frame {c : Channel} {i : Instr} {u t : State} (hi : i = riseOf c ∨ i = fallOf c)
    (he : exec i u = .next t) : SameSequencer u t ∧ SameEnv u t := by
  obtain ⟨-, hseq, henv⟩ := exec_edge_captureFrame hi he
  exact ⟨hseq, henv⟩

theorem Performed.env {x : Stimulus} {u t : State} (h : Performed x u t) : SameEnv u t := by
  cases h with
  | edge c i hw hi hd he => exact (edge_frame hi he).2
  | seq hw hm => exact hm.frame.2
  | reset hw => exact ⟨rfl, rfl, rfl⟩

theorem Performed.cfg_eq {x : Stimulus} {u t : State} (h : Performed x u t) : t.cfg = u.cfg := by
  obtain ⟨hcfg, -⟩ := h.env
  exact hcfg

theorem Performed.time_eq {x : Stimulus} {u t : State} (h : Performed x u t) : t.time = u.time := by
  obtain ⟨-, htime, -⟩ := h.env
  exact htime

theorem Performed.stimuli_eq {x : Stimulus} {u t : State} (h : Performed x u t) : t.stimuli = u.stimuli := by
  obtain ⟨-, -, hstimuli⟩ := h.env
  exact hstimuli

/-! ### Steps and runs -/

/-- A step that answers a next state performs the next stimulus at its time, if one is left. -/
theorem step_performed {s t : State} (h : step s = .next t) :
    (s.stimuli = [] ∧ t = s) ∨
    ∃ x rest, s.stimuli = x :: rest ∧ s.time ≤ x.t ∧ Performed x (s.advance x rest) t := by
  rcases step_cases h with hidle | ⟨x, rest, i, hs, ht, hd, -, he⟩
  · exact .inl hidle
  · exact .inr ⟨x, rest, hs, ht, performed_of_exec hd he⟩

theorem step_performed_of_cons {s t : State} {x : Stimulus} {rest : List Stimulus} (h : step s = .next t)
    (hs : s.stimuli = x :: rest) : s.time ≤ x.t ∧ Performed x (s.advance x rest) t := by
  rcases step_performed h with ⟨hnil, -⟩ | ⟨y, ys, hcons, ht, hx⟩
  · exact absurd (hs.symm.trans hnil) (List.cons_ne_nil _ _)
  · obtain ⟨rfl, rfl⟩ := List.cons.inj (hs.symm.trans hcons)
    exact ⟨ht, hx⟩

/-- A step of an infinite run performs the stimulus supplied to it. -/
theorem supply_performed {s t : State} {x : Stimulus} (h : step (s.supply x) = .next t) :
    s.time ≤ x.t ∧ Performed x (s.advance x []) t :=
  step_performed_of_cons (s := s.supply x) h rfl

/-- What does not look at the clock and the stimuli to come, and is kept by whatever a stimulus can do, is kept by
every step. -/
theorem step_keeps {P : State → Prop} (hadvance : ∀ s x rest, P s → P (s.advance x rest))
    (hperformed : ∀ x u t, P u → Performed x u t → P t) (s t : State) (hs : P s) (h : step s = .next t) : P t := by
  rcases step_performed h with ⟨-, rfl⟩ | ⟨x, rest, -, -, hx⟩
  · exact hs
  · exact hperformed x _ t (hadvance s x rest hs) hx

/-- How many moves of the sequencer a stimulus asks for: one, if it is the SEQ_STEP word. -/
def seqMoves (x : Stimulus) : Nat := if x.word = 0x40#8 then 1 else 0

theorem seqMoves_of_seq {x : Stimulus} (h : x.word = 0x40#8) : seqMoves x = 1 := if_pos h

theorem seqMoves_of_ne {x : Stimulus} (h : x.word ≠ 0x40#8) : seqMoves x = 0 := if_neg h

theorem seqCount_nil (k : Nat) : seqCount k [] = 0 := by simp [seqCount]

theorem seqCount_cons (k : Nat) (x : Stimulus) (xs : List Stimulus) :
    seqCount (k + 1) (x :: xs) = seqMoves x + seqCount k xs := by
  by_cases h : x.word = 0x40#8
  · simp [seqCount, seqMoves_of_seq h, h, Nat.add_comm]
  · simp [seqCount, seqMoves_of_ne h, h]

/-- A run of `k` steps leaves the stimuli after the first `k`. -/
theorem runSteps_stimuli {k : Nat} {s t : State} (h : runSteps k s = .next t) : t.stimuli = s.stimuli.drop k := by
  induction k generalizing s with
  | zero =>
    cases h
    rfl
  | succ k ih =>
    obtain ⟨u, hu, hrun⟩ := runSteps_succ h
    rcases step_performed hu with ⟨hnil, rfl⟩ | ⟨x, rest, hs, -, hx⟩
    · rw [ih hrun, hnil, List.drop_nil, List.drop_nil]
    · rw [ih hrun, hx.stimuli_eq, hs]
      rfl

/-- The induction along a run whose stimuli have the property `P`: what `I` says of the number of SEQ_STEPs so far and
the state, and each stimulus keeps. -/
theorem runSteps_count_induct {P : Stimulus → Prop} {I : Nat → State → Prop}
    (hstep : ∀ (n : Nat) (x : Stimulus) (s : State) (ys : List Stimulus) (t : State), P x → I n s → s.time ≤ x.t →
      Performed x (s.advance x ys) t → I (n + seqMoves x) t)
    {k n : Nat} {s t : State} (hP : ∀ x ∈ s.stimuli.take k, P x) (h0 : I n s) (h : runSteps k s = .next t) :
    I (n + seqCount k s.stimuli) t := by
  induction k generalizing n s with
  | zero =>
    cases h
    simpa [seqCount] using h0
  | succ k ih =>
    obtain ⟨u, hu, hrun⟩ := runSteps_succ h
    rcases step_performed hu with ⟨hnil, rfl⟩ | ⟨x, rest, hs, hle, hx⟩
    · have hdone := ih (by simp [hnil]) h0 hrun
      rw [hnil, seqCount_nil] at hdone ⊢
      exact hdone
    · rw [hs, List.take_succ_cons, List.forall_mem_cons] at hP
      obtain ⟨hPx, hPrest⟩ := hP
      have hrest : u.stimuli = rest := hx.stimuli_eq
      have hdone := ih (by rwa [hrest]) (hstep n x s rest u hPx h0 hle hx) hrun
      rwa [hs, seqCount_cons, ← Nat.add_assoc, ← hrest]

end Sys2Proof.Machine

/-! ## The outputs' invariant (43_mapper.md R184, R185, 44_control_loop.md R204, 41_gate.md R148) -/

namespace Sys2Proof.Machine

/-! ### What each output operation does to its motor -/

theorem otherLine_eq (s : State) (c : Channel) (d : Direction) : s.otherLine c d = s.sel c d.opposite := rfl

/-- One line at 0 is enough, whichever direction it stands for. -/
theorem exclusive_of_otherLine {s : State} {c : Channel} {d : Direction} (h : s.otherLine c d = 0) :
    s.sel c .forward = 0 ∨ s.sel c .backward = 0 := by
  cases d
  · exact .inl h
  · exact .inr h

theorem MotorFollows.exclusive {c : Channel} {s : State} (h : MotorFollows c s) :
    s.sel c .forward = 0 ∨ s.sel c .backward = 0 :=
  exclusive_of_otherLine h.2

/-- Whether motor `c` follows its snapshot is a matter of its lines, its snapshot and the parameters. -/
theorem MotorFollows.congr {c : Channel} {s t : State} (h : MotorFollows c s) (hcfg : t.cfg = s.cfg)
    (hsnap : SameSnap c s t) (hmotor : SameMotor c s t) : MotorFollows c t := by
  unfold SameSnap at hsnap
  unfold SameMotor at hmotor
  simpa only [MotorFollows, otherLine_eq, hcfg, hsnap, hmotor] using h

section OutputOperations

variable (s : State) (c : Channel) (p : BitVec 4)

/-- After MAP_ZERO_c the line not selected is 0 (R186, R188). -/
theorem zeroOther_otherLine :
    (s.zeroOther c p).otherLine c (dir (s.zeroOther c p).cfg ((s.zeroOther c p).snap c)) = 0 := by
  simp [zeroOther_eq, otherLine_eq]

/-- MAP_ZERO_c leaves a motor that follows its snapshot as it is: its other line is 0 already. -/
theorem MotorFollows.zeroOther {s : State} {c : Channel} (h : MotorFollows c s) (p : BitVec 4) :
    MotorFollows c (s.zeroOther c p) := by
  obtain ⟨hdriven, -⟩ := h
  refine ⟨?_, zeroOther_otherLine s c p⟩
  have hkept := writeLine_sel_opposite s c (dir s.cfg (s.snap c)).opposite 0
  rw [opposite_opposite, hdriven] at hkept
  simpa [zeroOther_eq] using hkept

/-- MAP_DRIVE_c makes its motor follow the snapshot, once the line not selected is 0 (R184). -/
theorem driveSelected_follows {s : State} {c : Channel} (h : s.otherLine c (dir s.cfg (s.snap c)) = 0) (p : BitVec 4) :
    MotorFollows c (s.driveSelected c p) := by
  refine ⟨by simp [driveSelected_eq], ?_⟩
  simpa [driveSelected_eq, otherLine_eq] using h

/-- The output operations of one motor leave the other motor and its snapshot as they are. -/
theorem MotorFrame.follows {s t : State} {c : Channel} (hframe : MotorFrame c s t) (h : MotorFollows c.other s) :
    MotorFollows c.other t := by
  obtain ⟨hmotor, -, hsnapL, hsnapR, -, -, -, hcfg, -⟩ := hframe
  cases c
  · exact h.congr hcfg hsnapR hmotor
  · exact h.congr hcfg hsnapL hmotor

theorem motorFrame_zeroOther : MotorFrame c s (s.zeroOther c p) := motorFrame_writeLine_writePhase ..

theorem motorFrame_driveSelected : MotorFrame c s (s.driveSelected c p) := motorFrame_writeLine_writePhase ..

/-- Where one motor's lines exclude each other after an output operation, the lines of both motors do. -/
theorem MotorFrame.linesExclusive {s t : State} {c : Channel} (hframe : MotorFrame c s t) (hs : LinesExclusive s)
    (h : t.sel c .forward = 0 ∨ t.sel c .backward = 0) : LinesExclusive t := by
  obtain ⟨hmotor, -⟩ := hframe
  have hother : t.sel c.other .forward = 0 ∨ t.sel c.other .backward = 0 := by
    rw [hmotor, hmotor]
    exact hs c.other
  intro e
  cases c <;> cases e
  · exact h
  · exact hother
  · exact hother
  · exact h

end OutputOperations

/-! ### The invariant along the moves -/

/-- A state that agrees with a safe one on the sequencer's registers and the parameters is safe. -/
theorem DriveSafe.of_sameSequencer {s t : State} (h : DriveSafe s) (hseq : SameSequencer s t) (hcfg : t.cfg = s.cfg) :
    DriveSafe t := by
  obtain ⟨hphase, ⟨-, -, hcause⟩, hsnapL, hsnapR, hmotorL, hmotorR, ⟨henL, henR⟩, -⟩ := hseq
  have hsel : ∀ c d, t.sel c d = s.sel c d := fun c d => by
    cases c
    · exact hmotorL d
    · exact hmotorR d
  have hL : t.snapL = s.snapL := hsnapL
  have hR : t.snapR = s.snapR := hsnapR
  constructor
  · simpa only [hphase] using h.phase_le
  · simpa only [hphase, hsel, henL, henR, hcause] using h.closed
  · simpa only [hphase, henL, henR, hcause] using h.released
  · simpa only [LinesExclusive, hsel] using h.exclusive
  · simpa only [hphase, otherLine_eq, hsel, hcfg, hL] using h.zeroedL
  · simpa only [hphase, otherLine_eq, hsel, hcfg, hR] using h.zeroedR
  · rw [hphase]
    exact fun h8 => (h.drivenL h8).congr hcfg hsnapL hmotorL
  · rw [hphase]
    exact fun h10 => (h.drivenR h10).congr hcfg hsnapR hmotorR

/-- With the gate not released and every output 0, nothing else is asked. -/
theorem driveSafe_of_closed {s : State} (hp : s.seqPhase.toNat < 4)
    (h : (∀ c d, s.sel c d = 0) ∧ s.enL = false ∧ s.enR = false ∧ s.cause = causeNone) : DriveSafe s where
  phase_le := by omega
  closed _ := h
  released h4 := by omega
  exclusive c := .inl (h.1 c .forward)
  zeroedL h7 := by simp [h7] at hp
  zeroedR h9 := by simp [h9] at hp
  drivenL h8 := by omega
  drivenR h10 := by simp [h10] at hp

theorem driveSafe_initial (c : Config) (T : Nat) (xs : List Stimulus) : DriveSafe (State.initial c T xs) :=
  driveSafe_of_closed (by simp) ⟨initial_sel c T xs, initial_enL .., initial_enR .., initial_cause ..⟩

/-- Settles O49: in phase 0 every output is 0. -/
theorem driveSafeAfterReset : Obligations.DriveSafeAfterReset :=
  ⟨driveSafe_initial Config.default 0 [], driveSafe_initial⟩

/-- A verdict that releases is one of the two causes (R144). -/
theorem gateVerdict_of_ne_none {s : State} (h : s.gateVerdict ≠ causeNone) :
    s.gateVerdict = causePattern ∨ s.gateVerdict = causeTimeout := by
  rcases gateVerdict_cases s with ⟨hv, -⟩ | ⟨hv, -⟩ | ⟨hv, -⟩
  · exact .inl hv
  · exact .inr hv
  · exact absurd hv h

theorem gateObserve_sel (s : State) (c : Channel) (d : Direction) : s.gateObserve.sel c d = s.sel c d := by
  obtain ⟨-, -, -, hmotorL, hmotorR, -⟩ := evalFrame_gateObserve s
  cases c
  · exact hmotorL d
  · exact hmotorR d

theorem gateObserve_snap (s : State) (c : Channel) : s.gateObserve.snap c = s.snap c := by
  obtain ⟨-, hsnapL, hsnapR, -⟩ := evalFrame_gateObserve s
  cases c
  · exact hsnapL
  · exact hsnapR

/-- The release finds every line at 0, so the loop begins safe (R145, R148). -/
theorem DriveSafe.release {s : State} (h : DriveSafe s) (hp : s.seqPhase = phGEval) (hv : s.gateVerdict ≠ causeNone) :
    DriveSafe (s.gateObserve.release s.gateVerdict) := by
  obtain ⟨hzero, -⟩ := h.closed (by simp [hp])
  have hsel : ∀ c d, (s.gateObserve.release s.gateVerdict).sel c d = 0 := fun c d => by
    simp [release_eq, gateObserve_sel, hzero]
  constructor
  case released => exact fun _ => ⟨rfl, rfl, gateVerdict_of_ne_none hv⟩
  case exclusive => exact fun c => .inl (hsel c .forward)
  all_goals simp [release_eq]

/-- In the loop a move keeps the release, so of the invariant only the motors are left to prove. -/
theorem DriveSafe.loop_move {s t : State} (h : DriveSafe s) (hm : SeqMove s t) (hs4 : 4 ≤ s.seqPhase.toNat)
    (ht4 : 4 ≤ t.seqPhase.toNat) (ht10 : t.seqPhase.toNat ≤ 10) (hexclusive : LinesExclusive t)
    (hzeroedL : t.seqPhase = phDriveL → t.otherLine .L (dir t.cfg t.snapL) = 0)
    (hzeroedR : t.seqPhase = phDriveR → t.otherLine .R (dir t.cfg t.snapR) = 0)
    (hdrivenL : 8 ≤ t.seqPhase.toNat → MotorFollows .L t) (hdrivenR : t.seqPhase = phLDiag → MotorFollows .R t) :
    DriveSafe t := by
  obtain ⟨⟨-, -, hcause⟩, henL, henR⟩ := hm.loop_frame hs4
  exact ⟨ht10, fun h3 => absurd h3 (by omega), fun _ => by rw [henL, henR, hcause]; exact h.released hs4, hexclusive,
    hzeroedL, hzeroedR, hdrivenL, hdrivenR⟩

theorem DriveSafe.seqMove {s t : State} (h : DriveSafe s) (hm : SeqMove s t) : DriveSafe t := by
  cases hm with
  | gateStart hp => exact driveSafe_of_closed (by simp) (h.closed (by simp [hp]))
  | gateReadL hp => exact driveSafe_of_closed (by simp [takeSnapshot_eq]) (h.closed (by simp [hp]))
  | gateReadR hp => exact driveSafe_of_closed (by simp [takeSnapshot_eq]) (h.closed (by simp [hp]))
  | gateBack hp hv =>
    obtain ⟨hzero, henL, henR, hcause⟩ := h.closed (by simp [hp])
    obtain ⟨hcause', henL', henR'⟩ := gateObserve_keeps_release s
    exact driveSafe_of_closed (by simp) ⟨fun c d => (gateObserve_sel s c d).trans (hzero c d), henL'.trans henL,
      henR'.trans henR, hcause'.trans hcause⟩
  | gateRelease hp hv => exact h.release hp hv
  | loopReadL hp =>
    apply h.loop_move (.loopReadL hp) (by simp [hp])
    case hexclusive => exact h.exclusive
    all_goals simp [takeSnapshot_eq]
  | loopReadR hp =>
    apply h.loop_move (.loopReadR hp) (by simp [hp])
    case hexclusive => exact h.exclusive
    all_goals simp [takeSnapshot_eq]
  | mapZeroL hp =>
    have hzeroed := zeroOther_otherLine s .L phDriveL
    apply h.loop_move (.mapZeroL hp) (by simp [hp])
    case hexclusive => exact (motorFrame_zeroOther s .L _).linesExclusive h.exclusive (exclusive_of_otherLine hzeroed)
    case hzeroedL => exact fun _ => hzeroed
    all_goals simp [zeroOther_eq]
  | mapDriveL hp =>
    have hdriven := driveSelected_follows (c := .L) (h.zeroedL hp) phZeroR
    apply h.loop_move (.mapDriveL hp) (by simp [hp])
    case hexclusive => exact (motorFrame_driveSelected s .L _).linesExclusive h.exclusive hdriven.exclusive
    case hdrivenL => exact fun _ => hdriven
    all_goals simp [driveSelected_eq]
  | mapZeroR hp =>
    have hzeroed := zeroOther_otherLine s .R phDriveR
    apply h.loop_move (.mapZeroR hp) (by simp [hp])
    case hexclusive => exact (motorFrame_zeroOther s .R _).linesExclusive h.exclusive (exclusive_of_otherLine hzeroed)
    case hzeroedR => exact fun _ => hzeroed
    case hdrivenL => exact fun _ => (motorFrame_zeroOther s .R _).follows (h.drivenL (by simp [hp]))
    all_goals simp [zeroOther_eq]
  | mapDriveR hp =>
    have hdriven := driveSelected_follows (c := .R) (h.zeroedR hp) phLDiag
    apply h.loop_move (.mapDriveR hp) (by simp [hp])
    case hexclusive => exact (motorFrame_driveSelected s .R _).linesExclusive h.exclusive hdriven.exclusive
    case hdrivenL => exact fun _ => (motorFrame_driveSelected s .R _).follows (h.drivenL (by simp [hp]))
    case hdrivenR => exact fun _ => hdriven
    all_goals simp [driveSelected_eq]
  | loopDiag hp =>
    apply h.loop_move (.loopDiag hp) (by simp [hp])
    case hexclusive => exact h.exclusive
    all_goals simp

theorem DriveSafe.advance {s : State} (h : DriveSafe s) (x : Stimulus) (rest : List Stimulus) :
    DriveSafe (s.advance x rest) :=
  h.of_sameSequencer ⟨rfl, ⟨rfl, rfl, rfl⟩, rfl, rfl, fun _ => rfl, fun _ => rfl, ⟨rfl, rfl⟩, rfl⟩ rfl

theorem DriveSafe.performed {x : Stimulus} {u t : State} (h : DriveSafe u) (hx : Performed x u t) : DriveSafe t := by
  cases hx with
  | edge c i hw hi hd he =>
    obtain ⟨hseq, hcfg, -⟩ := edge_frame hi he
    exact h.of_sameSequencer hseq hcfg
  | seq hw hm => exact h.seqMove hm
  | reset hw => exact driveSafe_initial ..

/-- Settles O50: the invariant is kept by the passing of time, by edge events, by each move of the sequencer and by
RESET. -/
theorem driveSafePreservedByEveryStep : Obligations.DriveSafePreservedByEveryStep :=
  step_keeps (fun _ x rest h => h.advance x rest) (fun _ _ _ h hx => h.performed hx)

theorem driveSafe_of_run {c : Config} {T : Nat} {xs : List Stimulus} {k : Nat} {t : State}
    (h : runSteps k (State.initial c T xs) = .next t) : DriveSafe t :=
  runSteps_induct driveSafePreservedByEveryStep (driveSafe_initial c T xs) h

/-- Settles O51: the exclusion of the invariant, read line by line. -/
theorem linesNeverBothDrivenInAnyRun : Obligations.LinesNeverBothDrivenInAnyRun :=
  fun _ _ _ _ _ h => ⟨(driveSafe_of_run h).exclusive .L, (driveSafe_of_run h).exclusive .R⟩

/-- Settles O52: an enabled block is not in a phase before the release, since the invariant has the enables at 0
there. -/
theorem outputsDeadUntilRelease : Obligations.OutputsDeadUntilRelease := by
  intro c T xs k t h
  have hsafe := driveSafe_of_run h
  refine ⟨fun hp => ?_, fun hen => ?_⟩
  · obtain ⟨hzero, henL, henR, hcause⟩ := hsafe.closed hp
    exact ⟨hzero .L .forward, hzero .L .backward, hzero .R .forward, hzero .R .backward, henL, henR, hcause⟩
  · have h4 : 4 ≤ t.seqPhase.toNat := by
      by_contra hlt
      obtain ⟨-, henL, -⟩ := hsafe.closed (by omega)
      exact absurd (hen.symm.trans henL) (by decide)
    obtain ⟨-, henR, hcause⟩ := hsafe.released h4
    exact ⟨henR, h4, hcause⟩

end Sys2Proof.Machine

/-! ## The registers' widths (00_scope.md R12, 10_state.md section 5) -/

namespace Sys2Proof.Machine

/-! ### Each writer keeps the ranges when the value it writes is in range -/

namespace RegistersInRange

variable {s : State}

theorem writeTs (h : RegistersInRange s) {v : Nat} (hv : v < 2 ^ s.cfg.clkBits) (c : Channel) :
    RegistersInRange (s.writeTs c v) := by
  refine ⟨by simpa using h.cfg_wf, fun e => ?_, by simpa using h.ref, by simpa using h.condOf, by simpa using h.snap,
    by simpa using h.gateT0, by simpa using h.streakT0, by simpa using h.line, by simpa using h.diag⟩
  cases c <;> cases e
  · exact hv
  · exact h.ts .R
  · exact h.ts .L
  · exact hv

theorem writeRef (h : RegistersInRange s) {v : Nat} (hv : v < 2 ^ s.cfg.clkBits) (c : Channel) :
    RegistersInRange (s.writeRef c v) := by
  refine ⟨by simpa using h.cfg_wf, by simpa using h.ts, fun e => ?_, by simpa using h.condOf, by simpa using h.snap,
    by simpa using h.gateT0, by simpa using h.streakT0, by simpa using h.line, by simpa using h.diag⟩
  cases c <;> cases e
  · exact hv
  · exact h.ref .R
  · exact h.ref .L
  · exact hv

theorem writeCond (h : RegistersInRange s) {v : Nat} (hv : v < 2 ^ s.cfg.clkBits) (c : Channel) :
    RegistersInRange (s.writeCond c v) := by
  refine ⟨by simpa using h.cfg_wf, by simpa using h.ts, by simpa using h.ref, fun e => ?_, by simpa using h.snap,
    by simpa using h.gateT0, by simpa using h.streakT0, by simpa using h.line, by simpa using h.diag⟩
  cases c <;> cases e
  · exact hv
  · exact h.condOf .R
  · exact h.condOf .L
  · exact hv

theorem writeSnap (h : RegistersInRange s) {v : Nat} (hv : v < 2 ^ s.cfg.clkBits) (c : Channel) :
    RegistersInRange (s.writeSnap c v) := by
  refine ⟨by simpa using h.cfg_wf, by simpa using h.ts, by simpa using h.ref, by simpa using h.condOf, fun e => ?_,
    by simpa using h.gateT0, by simpa using h.streakT0, by simpa using h.line, by simpa using h.diag⟩
  cases c <;> cases e
  · exact hv
  · exact h.snap .R
  · exact h.snap .L
  · exact hv

theorem writeLine (h : RegistersInRange s) {v : Nat} (hv : v ≤ s.cfg.dutyMax) (c : Channel) (d : Direction) :
    RegistersInRange (s.writeLine c d v) := by
  refine ⟨by simpa using h.cfg_wf, by simpa using h.ts, by simpa using h.ref, by simpa using h.condOf,
    by simpa using h.snap, by simpa using h.gateT0, by simpa using h.streakT0, fun e d' => ?_, by simpa using h.diag⟩
  rw [writeLine_cfg]
  by_cases he : e = c
  · subst he
    by_cases hd : d' = d
    · subst hd
      simpa using hv
    · obtain rfl : d' = d.opposite := by cases d <;> cases d' <;> trivial
      simpa using h.line e d.opposite
  · obtain rfl : e = c.other := by cases c <;> cases e <;> trivial
    simpa using h.line c.other d'

theorem writeGateT0 (h : RegistersInRange s) {v : Nat} (hv : v < 2 ^ s.cfg.clkBits) :
    RegistersInRange (s.writeGateT0 v) :=
  ⟨h.cfg_wf, h.ts, h.ref, h.condOf, h.snap, hv, h.streakT0, h.line, h.diag⟩

theorem writeStreakT0 (h : RegistersInRange s) {v : Nat} (hv : v < 2 ^ s.cfg.clkBits) :
    RegistersInRange (s.writeStreakT0 v) :=
  ⟨h.cfg_wf, h.ts, h.ref, h.condOf, h.snap, h.gateT0, hv, h.line, h.diag⟩

theorem writePhase (h : RegistersInRange s) (p : BitVec 4) : RegistersInRange (s.writePhase p) :=
  ⟨h.cfg_wf, h.ts, h.ref, h.condOf, h.snap, h.gateT0, h.streakT0, h.line, h.diag⟩

theorem release (h : RegistersInRange s) (q : BitVec 2) : RegistersInRange (s.release q) :=
  ⟨h.cfg_wf, h.ts, h.ref, h.condOf, h.snap, h.gateT0, h.streakT0, h.line, h.diag⟩

theorem advance (h : RegistersInRange s) (x : Stimulus) (rest : List Stimulus) :
    RegistersInRange (s.advance x rest) :=
  ⟨h.cfg_wf, h.ts, h.ref, h.condOf, h.snap, h.gateT0, h.streakT0, h.line, h.diag⟩

theorem emit (h : RegistersInRange s) {r : DiagRecord} (hr : r.inRange s.cfg.clkBits) : RegistersInRange (s.emit r) := by
  refine ⟨h.cfg_wf, h.ts, h.ref, h.condOf, h.snap, h.gateT0, h.streakT0, h.line, fun r' hr' => ?_⟩
  rcases List.mem_append.mp hr' with hold | hnew
  · exact h.diag r' hold
  · obtain rfl := List.mem_singleton.mp hnew
    exact hr

end RegistersInRange

/-! ### The values written are in range -/

theorem now_lt (s : State) : s.now < 2 ^ s.cfg.clkBits := wmod_lt ..

theorem sub_lt (s : State) (a b : Nat) : s.sub a b < 2 ^ s.cfg.clkBits := wsub_lt ..

/-- The three clamp values of the conditioner fit a timing register of a block that can be built (R10). -/
theorem clamps_lt_of_wf {k : Config} (h : k.wf = true) :
    k.neutral < 2 ^ k.clkBits ∧ k.absMax < 2 ^ k.clkBits ∧ k.absMin < 2 ^ k.clkBits := by
  simp only [Config.wf, Bool.and_eq_true, fits_iff] at h
  tauto

/-- Conditioning a value in range gives a value in range. -/
theorem cond_lt {k : Config} {v : Nat} (h : k.wf = true) (hv : v < 2 ^ k.clkBits) : cond k v < 2 ^ k.clkBits := by
  obtain ⟨hneutral, hmax, hmin⟩ := clamps_lt_of_wf h
  rcases cond_cases k v with hc | hc | hc | hc <;> rw [hc] <;> assumption

namespace RegistersInRange

variable {s t : State}

theorem condition (h : RegistersInRange s) {v : Nat} (hv : v < 2 ^ s.cfg.clkBits) (c : Channel) :
    RegistersInRange (s.condition c v) :=
  (h.writeRef hv c).writeCond (by simpa using cond_lt h.cfg_wf hv) c

theorem rightCommon (h : RegistersInRange s) : RegistersInRange s.rightCommon := h.condition (sub_lt ..) .R

theorem takeSnapshot (h : RegistersInRange s) (c : Channel) (p : BitVec 4) : RegistersInRange (s.takeSnapshot c p) :=
  (h.writeSnap (h.condOf c) c).writePhase p

theorem zeroOther (h : RegistersInRange s) (c : Channel) (p : BitVec 4) : RegistersInRange (s.zeroOther c p) :=
  (h.writeLine (Nat.zero_le _) c _).writePhase p

theorem driveSelected (h : RegistersInRange s) (c : Channel) (p : BitVec 4) :
    RegistersInRange (s.driveSelected c p) :=
  (h.writeLine (duty_le ..) c _).writePhase p

theorem gateStatus (h : RegistersInRange s) (q : DiagStatus) :
    (DiagRecord.gateStatus q s.snapL s.snapR).inRange s.cfg.clkBits := ⟨h.snap .L, h.snap .R⟩

theorem loopReport (h : RegistersInRange s) : (DiagRecord.loopReport s.snapL s.snapR).inRange s.cfg.clkBits :=
  ⟨h.snap .L, h.snap .R⟩

theorem gateObserve (h : RegistersInRange s) : RegistersInRange s.gateObserve := by
  rcases gateObserve_cases s with ⟨-, ho⟩ | ⟨-, ho⟩ <;> rw [ho]
  · exact h.emit (h.gateStatus _)
  · exact (h.emit (h.gateStatus _)).writeStreakT0 (now_lt s)

theorem seqMove (h : RegistersInRange s) (hm : SeqMove s t) : RegistersInRange t := by
  cases hm with
  | gateStart hp => exact ((h.writeGateT0 (now_lt s)).writeStreakT0 (now_lt s)).writePhase _
  | gateReadL hp | gateReadR hp | loopReadL hp | loopReadR hp => exact h.takeSnapshot _ _
  | gateBack hp hv => exact h.gateObserve.writePhase _
  | gateRelease hp hv => exact h.gateObserve.release _
  | mapZeroL hp | mapZeroR hp => exact h.zeroOther _ _
  | mapDriveL hp | mapDriveR hp => exact h.driveSelected _ _
  | loopDiag hp => exact (h.emit h.loopReport).writePhase _

theorem edge {c : Channel} {i : Instr} (h : RegistersInRange s) (hi : i = riseOf c ∨ i = fallOf c)
    (he : exec i s = .next t) : RegistersInRange t := by
  cases c <;> rcases hi with rfl | rfl <;> cases he
  · exact h.writeTs (now_lt s) .L
  · exact h.condition (sub_lt ..) .L
  · exact (h.writeTs (now_lt s) .R).rightCommon
  · exact h.rightCommon

end RegistersInRange

theorem registersInRange_initial (c : Config) (T : Nat) (xs : List Stimulus) (h : c.wf = true) :
    RegistersInRange (State.initial c T xs) where
  cfg_wf := h
  ts e := by simp
  ref e := by simp
  condOf e := by simp
  snap e := by simp
  gateT0 := Nat.two_pow_pos _
  streakT0 := Nat.two_pow_pos _
  line e d := by simp
  diag r hr := by simp at hr

/-- Settles O59: every register is 0, and the trace is empty. -/
theorem registersInRangeAfterReset : Obligations.RegistersInRangeAfterReset :=
  ⟨registersInRange_initial Config.default 0 [] (by decide), registersInRange_initial⟩

theorem RegistersInRange.performed {x : Stimulus} {u t : State} (h : RegistersInRange u) (hx : Performed x u t) :
    RegistersInRange t := by
  cases hx with
  | edge c i hw hi hd he => exact h.edge hi he
  | seq hw hm => exact h.seqMove hm
  | reset hw => exact registersInRange_initial _ _ _ h.cfg_wf

/-- Settles O60: an operation writes samples, differences modulo `2^W`, conditioned values and duties, each in its
register's range. -/
theorem registersInRangePreservedByEveryStep : Obligations.RegistersInRangePreservedByEveryStep :=
  step_keeps (fun _ x rest h => h.advance x rest) (fun _ _ _ h hx => h.performed hx)

end Sys2Proof.Machine

/-! ## The open gate (41_gate.md section 3, R146) -/

namespace Sys2Proof.Machine

/-! ### The verdict at a real time -/

/-- The block reads the real time since `K` from the sample of `K`, when that is below `2^W` (R130). -/
theorem sub_now_sample {s : State} {K : Nat} (hK : K ≤ s.time) (hlt : s.time < K + 2 ^ s.cfg.clkBits) :
    s.sub s.now (wmod s.cfg.clkBits K) = s.time - K := by
  rw [State.sub, State.now, wsub_samples _ _ _ hK]
  exact Nat.mod_eq_of_lt (by omega)

/-- From `GATE_TIMEOUT` after the start on, an evaluation has a verdict (R144). -/
theorem gateVerdict_ne_none_of_timeout {S : Nat} {s : State} (hT0 : s.gateT0 = wmod s.cfg.clkBits S)
    (htime : S + s.cfg.gateTimeout ≤ s.time) (hlt : s.time < S + 2 ^ s.cfg.clkBits) : s.gateVerdict ≠ causeNone := by
  have helapsed : s.sub s.now s.gateT0 = s.time - S := by
    rw [hT0]
    exact sub_now_sample (by omega) hlt
  intro hnone
  rcases gateVerdict_cases s with ⟨hv, -⟩ | ⟨hv, -⟩ | ⟨-, hto, -⟩
  · exact absurd (hnone.symm.trans hv) (by decide)
  · exact absurd (hnone.symm.trans hv) (by decide)
  · omega

/-- Before `GATE_TIMEOUT`, with a window at least as long, an evaluation of an open gate has no verdict: the streak
began no earlier than the gate (R146). -/
theorem GateOpen.gateVerdict_none {S : Nat} {s : State} (h : GateOpen S s)
    (hwindow : s.cfg.gateTimeout ≤ s.cfg.gateWindow) (htime : s.time < S + s.cfg.gateTimeout) :
    s.gateVerdict = causeNone := by
  obtain ⟨K, hSK, hKs, hstreak⟩ := h.streak
  have hstart := h.started
  have hwithin := h.inWindow
  have hgate : s.sub s.now s.gateT0 = s.time - S := by
    rw [h.gateT0]
    exact sub_now_sample hstart hwithin
  have hheld : s.sub s.now s.streakT0 = s.time - K := by
    rw [hstreak]
    exact sub_now_sample hKs (by omega)
  rcases gateVerdict_cases s with ⟨-, -, hw⟩ | ⟨-, hto, -⟩ | ⟨hv, -⟩
  · omega
  · omega
  · exact hv

/-! ### What keeps the gate open -/

/-- The gate stays open along what keeps its origin and leaves the streak's origin or moves it to the present. -/
theorem GateOpen.of_frame {S : Nat} {s t : State} (h : GateOpen S s) (henv : SameEnv s t)
    (hphase : t.seqPhase = phGReadL ∨ t.seqPhase = phGReadR ∨ t.seqPhase = phGEval) (hT0 : t.gateT0 = s.gateT0)
    (hstreak : t.streakT0 = s.streakT0 ∨ t.streakT0 = s.now) : GateOpen S t := by
  obtain ⟨hcfg, htime, -⟩ := henv
  refine ⟨hphase, by rw [htime]; exact h.started, by rw [htime, hcfg]; exact h.inWindow, ?_, ?_⟩
  · rw [hT0, hcfg]
    exact h.gateT0
  · rw [htime, hcfg]
    rcases hstreak with hkept | hmoved
    · rw [hkept]
      exact h.streak
    · exact ⟨s.time, h.started, le_rfl, hmoved⟩

/-- Time passing up to a stimulus leaves the gate open, within `2^W`. -/
theorem GateOpen.advance {S : Nat} {s : State} (h : GateOpen S s) {x : Stimulus} (ht : s.time ≤ x.t)
    (hlt : x.t < S + 2 ^ s.cfg.clkBits) (rest : List Stimulus) : GateOpen S (s.advance x rest) := by
  obtain ⟨K, hSK, hKs, hstreak⟩ := h.streak
  exact ⟨h.phase, h.started.trans ht, hlt, h.gateT0, K, hSK, hKs.trans ht, hstreak⟩

theorem gateObserve_streakT0 (s : State) : s.gateObserve.streakT0 = s.streakT0 ∨ s.gateObserve.streakT0 = s.now := by
  rcases gateObserve_cases s with ⟨-, ho⟩ | ⟨-, ho⟩ <;> rw [ho]
  · exact .inl rfl
  · exact .inr rfl

/-- Of an open gate the sequencer reads a channel or evaluates: without a release the gate stays open, nothing of the
release being written; with one it enters the loop, enabled, with a cause (R142 to R145). -/
theorem GateOpen.seqMove {S : Nat} {s t : State} (h : GateOpen S s) (hm : SeqMove s t) :
    (s.seqPhase = phGEval → s.gateVerdict ≠ causeNone →
      t.seqPhase = phLReadL ∧ t.enL = true ∧ t.enR = true ∧ (t.cause = causePattern ∨ t.cause = causeTimeout)) ∧
    ((s.seqPhase = phGEval → s.gateVerdict = causeNone) → GateOpen S t ∧ SameEnables s t ∧ t.cause = s.cause) := by
  have hphase := h.phase
  have henv := hm.frame.2
  cases hm with
  | gateReadL hp =>
    exact ⟨fun hq => by simp [hp] at hq, fun _ =>
      ⟨h.of_frame henv (.inr (.inl rfl)) rfl (.inl rfl), ⟨rfl, rfl⟩, rfl⟩⟩
  | gateReadR hp =>
    exact ⟨fun hq => by simp [hp] at hq, fun _ =>
      ⟨h.of_frame henv (.inr (.inr rfl)) rfl (.inl rfl), ⟨rfl, rfl⟩, rfl⟩⟩
  | gateBack hp hv =>
    obtain ⟨hcause, henables⟩ := gateObserve_keeps_release s
    obtain ⟨hT0, -⟩ := evalFrame_gateObserve s
    exact ⟨fun _ hne => absurd hv hne, fun _ =>
      ⟨h.of_frame henv (.inl rfl) hT0 (gateObserve_streakT0 s), henables, hcause⟩⟩
  | gateRelease hp hv =>
    exact ⟨fun _ _ => ⟨rfl, rfl, rfl, gateVerdict_of_ne_none hv⟩, fun hnone => absurd (hnone hp) hv⟩
  | gateStart hp | loopReadL hp | loopReadR hp | mapZeroL hp | mapDriveL hp | mapZeroR hp | mapDriveR hp
  | loopDiag hp => simp [hp] at hphase

/-- Settles O39: at a GATE_EVAL the verdict is decided by the timeout alone; every other stimulus leaves the gate
open. -/
theorem gateReleasesExactlyAtTimeout : Obligations.GateReleasesExactlyAtTimeout := by
  intro S s t x rest hopen hwindow hs hreset hlt hstep
  obtain ⟨ht, hx⟩ := step_performed_of_cons hstep hs
  have hopen' : GateOpen S (s.advance x rest) := hopen.advance ht hlt rest
  cases hx with
  | edge c i hw hi hd he =>
    obtain ⟨⟨hphase, ⟨hT0, hstreak, hcause⟩, -, -, -, -, henables, -⟩, henv⟩ := edge_frame hi he
    refine ⟨fun hseq => absurd hseq.1 (edgeWord_ne_seq hw), fun _ => ⟨?_, henables, hcause⟩⟩
    exact hopen'.of_frame henv (by rw [hphase]; exact hopen.phase) hT0 (.inl hstreak)
  | seq hw hm =>
    obtain ⟨hrelease, hstay⟩ := hopen'.seqMove hm
    refine ⟨fun ⟨_, hp, htime⟩ => hrelease hp (gateVerdict_ne_none_of_timeout hopen.gateT0 htime hlt), fun hearly => ?_⟩
    refine hstay fun hp => hopen'.gateVerdict_none hwindow ?_
    exact Nat.lt_of_not_le fun htime => hearly ⟨hw, hp, htime⟩
  | reset hw => exact absurd hw hreset

/-- Settles O38: both origins are samples of the present. -/
theorem gateStartOpensGate : Obligations.GateStartOpensGate :=
  fun s => ⟨_, exec_gateStart s, .inl rfl, le_rfl, Nat.lt_add_of_pos_right (Nat.two_pow_pos _), rfl, s.time, le_rfl,
    le_rfl, rfl⟩

end Sys2Proof.Machine

/-! ## The text of a script (30_encoding.md R100, R101) -/

namespace Sys2Proof.Machine

/-! ### Decimal numbers -/

theorem digitValue_digitChar {d : Nat} (h : d < 10) : digitValue (digitChar d) = some d := by
  interval_cases d <;> rfl

/-- A number of more digits is read on from the value of the first ones. -/
theorem readDigits_append (acc : Nat) (xs ys : List Char) :
    readDigits acc (xs ++ ys) = (readDigits acc xs).bind fun a => readDigits a ys := by
  induction xs generalizing acc with
  | nil => rfl
  | cons c cs ih =>
    simp only [List.cons_append, readDigits]
    cases digitValue c with
    | none => rfl
    | some d => exact ih _

theorem readDigits_digitChar (acc : Nat) {d : Nat} (h : d < 10) :
    readDigits acc [digitChar d] = some (10 * acc + d) := by
  simp [readDigits, digitValue_digitChar h]

/-- With enough fuel the digits written are those of the number. -/
theorem readDigits_writeDigits {fuel n : Nat} (h : n < fuel) : readDigits 0 (writeDigits fuel n) = some n := by
  induction fuel generalizing n with
  | zero => omega
  | succ fuel ih =>
    unfold writeDigits
    split_ifs with hn
    · simpa using readDigits_digitChar 0 hn
    · rw [readDigits_append, ih (by omega), Option.bind_some, readDigits_digitChar _ (Nat.mod_lt _ (by decide)),
        Nat.div_add_mod]

theorem writeNumber_ne_nil (n : Nat) : writeNumber n ≠ [] := by
  unfold writeNumber writeDigits
  split_ifs <;> simp

theorem readNumber_writeNumber (n : Nat) : readNumber (writeNumber n) = some n := by
  have hne : ¬ (writeNumber n).isEmpty = true := by simpa using writeNumber_ne_nil n
  rw [readNumber, if_neg hne]
  exact readDigits_writeDigits (Nat.lt_succ_self n)

/-! ### Words: what a line is cut into -/

/-- A character that neither ends a word, nor a line, nor begins a comment. -/
def wordChar (c : Char) : Bool := c != ' ' && c != ';' && c != '\n'

/-- A word of a line. -/
def IsWord (w : List Char) : Prop := w ≠ [] ∧ ∀ c ∈ w, wordChar c = true

theorem isWord_iff (w : List Char) : IsWord w ↔ (!w.isEmpty && w.all wordChar) = true := by
  simp [IsWord]

theorem wordChar_digitChar {d : Nat} (h : d < 10) : wordChar (digitChar d) = true := by
  interval_cases d <;> rfl

theorem wordChar_of_mem_writeDigits {fuel n : Nat} {c : Char} (h : c ∈ writeDigits fuel n) : wordChar c = true := by
  induction fuel generalizing n with
  | zero => simp [writeDigits] at h
  | succ fuel ih =>
    unfold writeDigits at h
    split_ifs at h with hn
    · obtain rfl := List.mem_singleton.mp h
      exact wordChar_digitChar hn
    · rcases List.mem_append.mp h with hfirst | hlast
      · exact ih hfirst
      · obtain rfl := List.mem_singleton.mp hlast
        exact wordChar_digitChar (Nat.mod_lt _ (by decide))

theorem isWord_writeNumber (n : Nat) : IsWord (writeNumber n) :=
  ⟨writeNumber_ne_nil n, fun _ h => wordChar_of_mem_writeDigits h⟩

/-- Words with one blank between each and the next. -/
def joinWords (w : List Char) : List (List Char) → List Char
  | [] => w
  | v :: vs => w ++ ' ' :: joinWords v vs

theorem pieces_of_notMem {sep : Char} {w : List Char} (h : sep ∉ w) : pieces sep w = [w] := by
  induction w with
  | nil => rfl
  | cons c cs ih =>
    obtain ⟨hc, hcs⟩ := List.ne_and_not_mem_of_not_mem_cons h
    simp [pieces, ih hcs, hc.symm]

/-- A text is cut at its first separator. -/
theorem pieces_append_cons {sep : Char} {w : List Char} (h : sep ∉ w) (rest : List Char) :
    pieces sep (w ++ sep :: rest) = w :: pieces sep rest := by
  induction w with
  | nil => simp [pieces]
  | cons c cs ih =>
    obtain ⟨hc, hcs⟩ := List.ne_and_not_mem_of_not_mem_cons h
    simp [pieces, ih hcs, hc.symm]

theorem withoutComment_of_notMem {line : List Char} (h : ';' ∉ line) : withoutComment line = line := by
  induction line with
  | nil => rfl
  | cons c cs ih =>
    obtain ⟨hc, hcs⟩ := List.ne_and_not_mem_of_not_mem_cons h
    simp [withoutComment, ih hcs, hc.symm]

theorem IsWord.blank_notMem {w : List Char} (h : IsWord w) : ' ' ∉ w := fun hmem =>
  absurd (h.2 ' ' hmem) (by decide)

/-- The characters of a line are those of its words and blanks. -/
theorem wordChar_of_mem_joinWords {w : List Char} {ws : List (List Char)} (h : ∀ v ∈ w :: ws, IsWord v) {c : Char}
    (hc : c ∈ joinWords w ws) : c = ' ' ∨ wordChar c = true := by
  induction ws generalizing w with
  | nil => exact .inr ((h w List.mem_cons_self).2 c hc)
  | cons v vs ih =>
    rcases List.mem_append.mp hc with hw | hrest
    · exact .inr ((h w List.mem_cons_self).2 c hw)
    · rcases List.mem_cons.mp hrest with hblank | hvs
      · exact .inl hblank
      · exact ih (fun u hu => h u (List.mem_cons_of_mem _ hu)) hvs

/-- Neither a comment nor a line's end comes from words. -/
theorem notMem_joinWords {w : List Char} {ws : List (List Char)} (h : ∀ v ∈ w :: ws, IsWord v) {c : Char}
    (hblank : c ≠ ' ') (hc : wordChar c = false) : c ∉ joinWords w ws := fun hmem => by
  rcases wordChar_of_mem_joinWords h hmem with hb | hw
  · exact hblank hb
  · exact absurd (hw.symm.trans hc) (by decide)

theorem pieces_joinWords {w : List Char} {ws : List (List Char)} (h : ∀ v ∈ w :: ws, IsWord v) :
    pieces ' ' (joinWords w ws) = w :: ws := by
  induction ws generalizing w with
  | nil => exact pieces_of_notMem (h w List.mem_cons_self).blank_notMem
  | cons v vs ih =>
    rw [joinWords, pieces_append_cons (h w List.mem_cons_self).blank_notMem,
      ih fun u hu => h u (List.mem_cons_of_mem _ hu)]

/-- A line written from words is read as those words. -/
theorem wordsOf_joinWords {w : List Char} {ws : List (List Char)} (h : ∀ v ∈ w :: ws, IsWord v) :
    wordsOf (joinWords w ws) = w :: ws := by
  rw [wordsOf, withoutComment_of_notMem (notMem_joinWords h (by decide) (by decide)), pieces_joinWords h]
  refine List.filter_eq_self.mpr fun v hv => ?_
  simpa using (h v hv).1

/-! ### Lines and scripts -/

/-- The spelling of a pulse, without its width. -/
def pulseName : Channel → List Char
  | .L => "PULSE_L".toList
  | .R => "PULSE_R".toList

/-- The first word of a directive. -/
def directiveName : Directive → List Char
  | .pulse c _ => pulseName c
  | .edgeRise c => writeDirective (.edgeRise c)
  | .edgeFall c => writeDirective (.edgeFall c)
  | .seq => writeDirective .seq
  | .seqMicro m => writeDirective (.seqMicro m)
  | .reset => writeDirective .reset
  | .gateIter => writeDirective .gateIter
  | .loopIter => writeDirective .loopIter

/-- The words of a directive after the first: the width of a pulse (R101). -/
def directiveArgs : Directive → List (List Char)
  | .pulse _ w => [writeNumber w]
  | .edgeRise _ => []
  | .edgeFall _ => []
  | .seq => []
  | .seqMicro _ => []
  | .reset => []
  | .gateIter => []
  | .loopIter => []

theorem writeDirective_eq (d : Directive) : writeDirective d = joinWords (directiveName d) (directiveArgs d) := by
  cases d with
  | pulse c w => cases c <;> rfl
  | edgeRise c | edgeFall c => rfl
  | seq | reset | gateIter | loopIter => rfl
  | seqMicro m => rfl

theorem writeLine_eq (x : ScriptLine) :
    writeLine x = joinWords ('@' :: writeNumber x.t) (directiveName x.what :: directiveArgs x.what) := by
  rw [writeLine, writeDirective_eq]
  rfl

theorem isWord_pulseName (c : Channel) : IsWord (pulseName c) := by
  rw [isWord_iff]
  cases c <;> decide

theorem isWord_directiveName (d : Directive) : IsWord (directiveName d) := by
  cases d with
  | pulse c w => exact isWord_pulseName c
  | edgeRise c | edgeFall c =>
    rw [isWord_iff]
    cases c <;> decide
  | seq | reset | gateIter | loopIter =>
    rw [isWord_iff]
    decide
  | seqMicro m =>
    rw [isWord_iff]
    cases m <;> decide

/-- The words of a line. -/
theorem isWord_of_mem_line (x : ScriptLine) :
    ∀ v ∈ ('@' :: writeNumber x.t) :: directiveName x.what :: directiveArgs x.what, IsWord v := by
  have htime : IsWord ('@' :: writeNumber x.t) :=
    ⟨List.cons_ne_nil _ _, List.forall_mem_cons.mpr ⟨by decide, (isWord_writeNumber x.t).2⟩⟩
  have hargs : ∀ v ∈ directiveArgs x.what, IsWord v := by
    cases x.what with
    | pulse c w => exact List.forall_mem_singleton.mpr (isWord_writeNumber w)
    | edgeRise | edgeFall | seq | seqMicro | reset | gateIter | loopIter => exact fun v hv => nomatch hv
  exact List.forall_mem_cons.mpr ⟨htime, List.forall_mem_cons.mpr ⟨isWord_directiveName x.what, hargs⟩⟩

/-- The spellings are told apart, each directive by its own. -/
theorem readDirective_written {d : Directive} (h : d.wf = true) :
    readDirective (directiveName d :: directiveArgs d) = some d := by
  cases d with
  | pulse c w =>
    have hname : lookupSpelling (pulseName c) pulseSpellings = some c := by cases c <;> decide
    simp only [directiveName, directiveArgs, readDirective, hname, readNumber_writeNumber]
  | edgeRise c | edgeFall c => cases c <;> decide
  | seq | reset | gateIter | loopIter => decide
  | seqMicro m =>
    cases m
    case edgeFallL | edgeRiseL | edgeFallR | edgeRiseR | seqStep | reset => cases h
    all_goals decide

theorem readLine_writeLine {x : ScriptLine} (h : x.what.wf = true) : readLine (writeLine x) = some [x] := by
  have htime : readTime ('@' :: writeNumber x.t) = some x.t := readNumber_writeNumber x.t
  rw [readLine, writeLine_eq, wordsOf_joinWords (isWord_of_mem_line x)]
  simp only [htime, readDirective_written h]

/-- No line holds a line break, so the text is cut back into its lines. -/
theorem pieces_writeScript (xs : List ScriptLine) : pieces '\n' (writeScript xs) = xs.map writeLine ++ [[]] := by
  induction xs with
  | nil => rfl
  | cons x xs ih =>
    have hbreak : '\n' ∉ writeLine x := by
      rw [writeLine_eq]
      exact notMem_joinWords (isWord_of_mem_line x) (by decide) (by decide)
    rw [writeScript, pieces_append_cons hbreak, ih]
    rfl

theorem readLines_writeLines {xs : List ScriptLine} (h : ∀ x ∈ xs, x.what.wf = true) :
    readLines (xs.map writeLine ++ [[]]) = some xs := by
  induction xs with
  | nil => rfl
  | cons x xs ih =>
    obtain ⟨hx, hxs⟩ := List.forall_mem_cons.mp h
    simp only [List.map_cons, List.cons_append, readLines, readLine_writeLine hx, ih hxs, List.nil_append]

/-- Settles O5: the text is cut into its lines, each line into its words, and each word is read back. -/
theorem writtenScriptReadsBack : Obligations.WrittenScriptReadsBack := by
  intro xs h
  rw [readScript, pieces_writeScript, readLines_writeLines h]

/-- Settles O6: insertion by time keeps the order of the times, and of the stimuli of each time. -/
theorem scriptOrderIsStable : Obligations.ScriptOrderIsStable :=
  fun xs => ⟨timesFrom_sortByTime xs, fun t => filter_sortByTime t xs⟩

end Sys2Proof.Machine

/-! ## The step and its conventions (30_encoding.md section 1, 60_exceptions.md sections 1, 7 and 9) -/

namespace Sys2Proof.Machine

/-! ### The two codes -/

theorem decode_encode (i : Instr) : decode (encode i) = .ok i := by
  cases i <;> decide

/-- A phase code that decodes is the code of its micro-operation. -/
theorem phase_eq_encode {p : BitVec 4} {i : Instr} (h : decodePhase p = .ok i) : .phase p = encode i := by
  revert h
  revert p
  cases i <;> decide

/-- A byte that decodes is the code of its operation. -/
theorem stimulus_eq_encode {w : BitVec 8} {i : Instr} (h : decodeByte w = .ok i) : .stimulus w = encode i := by
  rcases decodeByte_cases h with ⟨rfl, rfl⟩ | ⟨rfl, rfl⟩ | ⟨rfl, rfl⟩ | ⟨rfl, rfl⟩ | ⟨rfl, rfl⟩ | ⟨rfl, rfl⟩ <;> rfl

/-- Settles O3, in each of the two code spaces. -/
theorem decodeInvertsEncode : Obligations.DecodeInvertsEncode := by
  refine ⟨decode_encode, fun c i h => ?_⟩
  cases c with
  | stimulus w => exact stimulus_eq_encode h
  | phase p => exact phase_eq_encode h

/-- Settles O4: each code is the one `encode` gives. -/
theorem sampleCodesDecode : Obligations.SampleCodesDecode :=
  ⟨decode_encode .edgeRiseL, decode_encode .edgeFallR, decode_encode .seqStep, decode_encode .reset,
    decode_encode .gateEval, decode_encode .loopReadR, decode_encode .mapDriveL⟩

/-- The word of an operation decodes to it. -/
theorem decodeByte_of_word {x : Stimulus} {w : BitVec 8} {i : Instr} (hx : x.word = w) (hi : encode i = .stimulus w) :
    decodeByte x.word = .ok i := by
  have h := decode_encode i
  rw [hi, ← hx] at h
  exact h

/-! ### Which stimuli are performed -/

/-- Settles O8: the time, the word and the assertion are what `step` judges. -/
theorem stepRunsDecodedOperation : Obligations.StepRunsDecodedOperation :=
  fun _ x _ _ hs ht hd ha => step_run hs ht hd ((holds_iff x _).mpr ha)

/-- Settles O10: the word decodes, so the assertion is judged. -/
theorem failedScriptAssertionRefused : Obligations.FailedScriptAssertionRefused := by
  intro s x rest m hs ht hw hexpect hphase
  have hd : decodeByte x.word = .ok .seqStep := decodeByte_of_word hw rfl
  have hfails : ¬ Stimulus.holds x s = true := fun h => hphase ((holds_iff x s).mp h m hexpect)
  simp only [step, State.fetch, hs, State.take, if_neg ht.not_gt, hd, if_neg hfails]

theorem step_idle {s : State} (h : s.stimuli = []) : step s = .next s := by
  simp only [step, State.fetch, h]

/-- Settles O11. -/
theorem streamConventions : Obligations.StreamConventions :=
  ⟨fun _ h => step_idle h, fun _ _ _ hs ht => by simp only [step, State.fetch, hs, State.take, if_pos ht],
    fun s => ⟨_, exec_reset s, rfl, rfl, rfl⟩⟩

/-- A step that answers a next state performed its stimulus as the operation the word decodes to. -/
theorem step_decoded {s t : State} {x : Stimulus} {rest : List Stimulus} {i : Instr} (h : step s = .next t)
    (hs : s.stimuli = x :: rest) (hd : decodeByte x.word = .ok i) :
    s.time ≤ x.t ∧ exec i (s.advance x rest) = .next t := by
  rcases step_cases h with ⟨hnil, -⟩ | ⟨y, ys, j, hcons, ht, hdy, -, he⟩
  · exact absurd (hs.symm.trans hnil) (List.cons_ne_nil _ _)
  · obtain ⟨rfl, rfl⟩ := List.cons.inj (hs.symm.trans hcons)
    obtain rfl := Except.ok.inj (hd.symm.trans hdy)
    exact ⟨ht, he⟩

/-- Settles O13: performing a stimulus keeps what `advance` has set. -/
theorem timeNeverDecreasesAndParametersStay : Obligations.TimeNeverDecreasesAndParametersStay := by
  intro s t h
  rcases step_performed h with ⟨hnil, rfl⟩ | ⟨x, rest, hs, ht, hx⟩
  · exact ⟨le_rfl, rfl, by rw [hnil]; rfl⟩
  · obtain ⟨hcfg, htime, hstimuli⟩ := hx.env
    exact ⟨htime ▸ ht, hcfg, by rw [hstimuli, hs]; rfl⟩

/-! ### The phase table and the trace, move by move -/

/-- The phase table of 10_state.md R40. -/
theorem SeqMove.next_phase {s t : State} (h : SeqMove s t) :
    t.seqPhase ≠ s.seqPhase ∧
    (s.seqPhase ≠ 3#4 → s.seqPhase ≠ 10#4 → t.seqPhase = s.seqPhase + 1#4) ∧
    (s.seqPhase = 3#4 → t.seqPhase = 1#4 ∨ t.seqPhase = 4#4) ∧
    (s.seqPhase = 10#4 → t.seqPhase = 4#4) := by
  cases h with
  | gateStart hp | gateBack hp hv | gateRelease hp hv | loopDiag hp => simp [hp, release_eq]
  | gateReadL hp | gateReadR hp | loopReadL hp | loopReadR hp => simp [hp, takeSnapshot_eq]
  | mapZeroL hp | mapZeroR hp => simp [hp, zeroOther_eq]
  | mapDriveL hp | mapDriveR hp => simp [hp, driveSelected_eq]

/-- Settles O14. -/
theorem seqStepFollowsPhaseTable : Obligations.SeqStepFollowsPhaseTable :=
  fun _ _ h => (seqMove_of_exec h).next_phase

/-- In the loop a move goes on by one phase, and from the last one back to the first. -/
theorem SeqMove.loop_phase {s t : State} (h : SeqMove s t) (h4 : 4 ≤ s.seqPhase.toNat) :
    t.seqPhase.toNat = 4 + (s.seqPhase.toNat - 4 + 1) % 7 := by
  cases h with
  | gateStart hp | gateReadL hp | gateReadR hp | gateBack hp | gateRelease hp => simp [hp] at h4
  | loopReadL hp | loopReadR hp => simp [hp, takeSnapshot_eq]
  | mapZeroL hp | mapZeroR hp => simp [hp, zeroOther_eq]
  | mapDriveL hp | mapDriveR hp => simp [hp, driveSelected_eq]
  | loopDiag hp => simp [hp]

theorem gateObserve_diag (s : State) : ∃ q, s.gateObserve.diag = s.diag ++ [.gateStatus q s.snapL s.snapR] := by
  rcases gateObserve_cases s with ⟨-, ho⟩ | ⟨-, ho⟩ <;> rw [ho] <;> exact ⟨_, rfl⟩

/-- Which moves append to the trace, and what (R236). -/
theorem SeqMove.diag {s t : State} (h : SeqMove s t) :
    (s.seqPhase ≠ phGEval → s.seqPhase ≠ phLDiag → t.diag = s.diag) ∧
    (s.seqPhase = phGEval → ∃ q, t.diag = s.diag ++ [.gateStatus q s.snapL s.snapR]) ∧
    (s.seqPhase = phLDiag → t.diag = s.diag ++ [.loopReport s.snapL s.snapR]) := by
  cases h with
  | gateBack hp hv | gateRelease hp hv => simpa [hp, release_eq] using gateObserve_diag s
  | gateStart hp | loopDiag hp => simp [hp]
  | gateReadL hp | gateReadR hp | loopReadL hp | loopReadR hp => simp [hp, takeSnapshot_eq]
  | mapZeroL hp | mapZeroR hp => simp [hp, zeroOther_eq]
  | mapDriveL hp | mapDriveR hp => simp [hp, driveSelected_eq]

/-- Settles O54: edge events leave the trace, and of the moves only GATE_EVAL and LOOP_DIAG append to it. -/
theorem diagOnlyAppendedByEvalAndReport : Obligations.DiagOnlyAppendedByEvalAndReport := by
  intro s t h hreset
  rcases step_performed h with ⟨-, rfl⟩ | ⟨x, rest, hs, -, hx⟩
  · exact .inl rfl
  cases hx with
  | edge c i hw hi hd he =>
    obtain ⟨⟨-, -, -, -, -, -, -, hdiag⟩, -⟩ := edge_frame hi he
    exact .inl hdiag
  | seq hw hm =>
    obtain ⟨hkept, heval, hreport⟩ := hm.diag
    by_cases hp3 : s.seqPhase = phGEval
    · obtain ⟨q, hq⟩ := heval hp3
      exact .inr ⟨x, rest, _, hs, hw, hq, .inl ⟨hp3, q, rfl⟩⟩
    · by_cases hp10 : s.seqPhase = phLDiag
      · exact .inr ⟨x, rest, _, hs, hw, hreport hp10, .inr ⟨hp10, rfl⟩⟩
      · exact .inl (hkept hp3 hp10)
  | reset hw => exact absurd hw (hreset x rest hs)

/-! ### After the release -/

/-- In the loop whatever a stimulus other than RESET does keeps the release and stays in the loop. -/
theorem Performed.loop {x : Stimulus} {u t : State} (h : Performed x u t) (hreset : x.word ≠ 0x80#8)
    (h4 : 4 ≤ u.seqPhase.toNat) (h10 : u.seqPhase.toNat ≤ 10) :
    SameEnables u t ∧ t.cause = u.cause ∧ 4 ≤ t.seqPhase.toNat ∧ t.seqPhase.toNat ≤ 10 := by
  cases h with
  | edge c i hw hi hd he =>
    obtain ⟨⟨hphase, ⟨-, -, hcause⟩, -, -, -, -, henables, -⟩, -⟩ := edge_frame hi he
    exact ⟨henables, hcause, hphase ▸ h4, hphase ▸ h10⟩
  | seq hw hm =>
    obtain ⟨⟨-, -, hcause⟩, henables⟩ := hm.loop_frame h4
    have hphase := hm.loop_phase h4
    exact ⟨henables, hcause, by omega, by omega⟩
  | reset hw => exact absurd hw hreset

/-- Settles O41. -/
theorem releaseIsPermanent : Obligations.ReleaseIsPermanent := by
  intro s t h4 h10 h hreset
  rcases step_performed h with ⟨-, rfl⟩ | ⟨x, rest, hs, -, hx⟩
  · exact ⟨⟨rfl, rfl⟩, rfl, h4, h10⟩
  · exact hx.loop (hreset x rest hs) h4 h10

/-! ### Plain streams -/

theorem plainStream_cons {T : Nat} {x : Stimulus} {xs : List Stimulus} :
    PlainStream T (x :: xs) ↔ T ≤ x.t ∧ x.expect = none ∧ (∃ i, decodeByte x.word = .ok i) ∧ PlainStream x.t xs := by
  simp only [PlainStream, streamWf, Bool.and_eq_true, timesFrom_cons, List.all_cons, List.forall_mem_cons]
  constructor
  · rintro ⟨⟨⟨ht, htimes⟩, -, hwf⟩, ⟨hexpect, hd⟩, hall⟩
    exact ⟨ht, hexpect, hd, ⟨htimes, hwf⟩, hall⟩
  · rintro ⟨ht, hexpect, hd, ⟨htimes, hwf⟩, hall⟩
    exact ⟨⟨⟨ht, htimes⟩, by simp [Stimulus.wf, hexpect], hwf⟩, ⟨hexpect, hd⟩, hall⟩

/-- Every operation a byte spells completes in a phase that is not reserved (R220). -/
theorem exec_decoded_next {w : BitVec 8} {i : Instr} {s : State} (hd : decodeByte w = .ok i)
    (hp : s.seqPhase.toNat ≤ 10) : ∃ t, exec i s = .next t := by
  rcases decodeByte_cases hd with ⟨-, rfl⟩ | ⟨-, rfl⟩ | ⟨-, rfl⟩ | ⟨-, rfl⟩ | ⟨-, rfl⟩ | ⟨-, rfl⟩
  case inr.inr.inr.inr.inl => exact exec_seqStep_next hp
  all_goals exact ⟨_, rfl⟩

/-- The next stimulus of a plain stream is performed. -/
theorem step_plain {s : State} {x : Stimulus} {xs rest : List Stimulus} (hs : s.stimuli = x :: rest)
    (hplain : PlainStream s.time (x :: xs)) (hp : s.seqPhase.toNat ≤ 10) :
    ∃ t, step s = .next t ∧ t.seqPhase.toNat ≤ 10 ∧ t.stimuli = rest ∧ PlainStream t.time xs := by
  obtain ⟨ht, hexpect, ⟨i, hd⟩, hrest⟩ := plainStream_cons.mp hplain
  have hstep := step_run hs ht hd (holds_plain s x hexpect)
  obtain ⟨t, he⟩ := exec_decoded_next (s := s.advance x rest) hd hp
  obtain ⟨-, htime, hstimuli⟩ := exec_env he
  exact ⟨t, hstep.trans he, exec_seqPhase_le (s := s.advance x rest) hp he, hstimuli, htime ▸ hrest⟩

/-- A run goes through a plain stream to its end, whatever comes after. -/
theorem runSteps_plain {xs rest : List Stimulus} {s : State} (hs : s.stimuli = xs ++ rest)
    (hplain : PlainStream s.time xs) (hp : s.seqPhase.toNat ≤ 10) :
    ∃ t, runSteps xs.length s = .next t := by
  induction xs generalizing s with
  | nil => exact ⟨s, rfl⟩
  | cons x xs ih =>
    obtain ⟨u, hu, hpu, hsu, hplainu⟩ := step_plain hs hplain hp
    obtain ⟨t, ht⟩ := ih hsu hplainu hpu
    exact ⟨t, by simpa only [List.length_cons, runSteps, hu] using ht⟩

/-- Settles O15: a step of the run performs a stimulus or, past the end, leaves the state. -/
theorem plainStreamNeverStops : Obligations.PlainStreamNeverStops := by
  intro s hp hplain k
  induction k generalizing s with
  | zero => exact ⟨s, rfl, hp⟩
  | succ k ih =>
    cases hs : s.stimuli with
    | nil =>
      obtain ⟨t, ht, hpt⟩ := ih s hp hplain
      exact ⟨t, by simpa only [runSteps, step_idle hs] using ht, hpt⟩
    | cons x rest =>
      obtain ⟨u, hu, hpu, hsu, hplainu⟩ := step_plain hs (hs ▸ hplain) hp
      obtain ⟨t, ht, hpt⟩ := ih u hpu (hsu ▸ hplainu)
      exact ⟨t, by simpa only [runSteps, hu] using ht, hpt⟩

end Sys2Proof.Machine

/-! ## What no operation, and what the sequencer, reads (60_exceptions.md sections 3, 7 and 8) -/

namespace Sys2Proof.Machine

/-! ### The order of captures -/

/-- Settles O21: the two channels' writers are of different registers, and each reads its own channel's. -/
theorem capturesOfDifferentChannelsCommute : Obligations.CapturesOfDifferentChannelsCommute := by
  intro i j s hi hj
  rcases hi with rfl | rfl <;> rcases hj with rfl | rfl
  · exact ⟨_, _, _, exec_edgeRiseL s, rfl, rfl, rfl⟩
  · exact ⟨_, _, _, exec_edgeRiseL s, rfl, rfl, rfl⟩
  · exact ⟨_, _, _, exec_edgeFallL s, rfl, rfl, rfl⟩
  · exact ⟨_, _, _, exec_edgeFallL s, rfl, rfl, rfl⟩

/-! ### The trace -/

/-- `s` with another trace. -/
def State.withDiag (s : State) (ds : List DiagRecord) : State := { s with diag := ds }

/-- `i` performed in `s` appends the records `rs` and answers the same state, up to the trace, whatever trace `s`
has. -/
def AppendsTo (i : Instr) (s t : State) (rs : List DiagRecord) : Prop :=
  t.diag = s.diag ++ rs ∧ ∀ ds, exec i (s.withDiag ds) = .next (t.withDiag (ds ++ rs))

/-- Writing a line and the phase is the same with another trace. -/
theorem writeLine_writePhase_withDiag (s : State) (ds : List DiagRecord) (c : Channel) (d : Direction) (v : Nat)
    (p : BitVec 4) :
    ((s.withDiag ds).writeLine c d v).writePhase p = ((s.writeLine c d v).writePhase p).withDiag ds := by
  cases c <;> cases d <;> rfl

/-- A line write appends nothing and reads no trace. -/
theorem appendsTo_writeLine {i : Instr} {s : State} {c : Channel} {d : Direction} {v : Nat} {p : BitVec 4}
    (h : ∀ ds, exec i (s.withDiag ds) = .next (((s.withDiag ds).writeLine c d v).writePhase p)) :
    AppendsTo i s ((s.writeLine c d v).writePhase p) [] := by
  refine ⟨by simp, fun ds => ?_⟩
  rw [h, writeLine_writePhase_withDiag, List.append_nil]

/-- The record and the streak origin of an evaluation do not depend on the trace. -/
theorem gateObserve_withDiag (s : State) : ∃ r, s.gateObserve.diag = s.diag ++ [r] ∧
    ∀ ds, (s.withDiag ds).gateObserve = s.gateObserve.withDiag (ds ++ [r]) := by
  by_cases hp : PatternHolds s
  · refine ⟨.gateStatus .INIT s.snapL s.snapR, by rw [gateObserve_of_pattern hp]; rfl, fun ds => ?_⟩
    rw [gateObserve_of_pattern hp, gateObserve_of_pattern (s := s.withDiag ds) hp]
    rfl
  · refine ⟨.gateStatus .ERROR s.snapL s.snapR, by rw [gateObserve_of_not_pattern hp]; rfl, fun ds => ?_⟩
    rw [gateObserve_of_not_pattern hp, gateObserve_of_not_pattern (s := s.withDiag ds) hp]
    rfl

theorem appendsTo_gateEval {s t : State} (h : exec .gateEval s = .next t) : ∃ rs, AppendsTo .gateEval s t rs := by
  obtain ⟨r, hdiag, hobserve⟩ := gateObserve_withDiag s
  by_cases hv : s.gateVerdict = causeNone
  · rw [exec_gateEval_none s hv] at h
    cases h
    refine ⟨[r], hdiag, fun ds => ?_⟩
    rw [exec_gateEval_none (s.withDiag ds) hv, hobserve]
    rfl
  · rw [exec_gateEval_release s hv] at h
    cases h
    refine ⟨[r], hdiag, fun ds => ?_⟩
    rw [exec_gateEval_release (s.withDiag ds) hv, hobserve]
    rfl

/-- Every operation but RESET and the sequencer's dispatch, by its register writes. -/
theorem appendsTo_of_exec {i : Instr} {s t : State} (hreset : i ≠ .reset) (hseq : i ≠ .seqStep)
    (h : exec i s = .next t) : ∃ rs, AppendsTo i s t rs := by
  cases i
  case reset => exact absurd rfl hreset
  case seqStep => exact absurd rfl hseq
  case gateEval => exact appendsTo_gateEval h
  case loopDiag =>
    cases h
    exact ⟨[.loopReport s.snapL s.snapR], rfl, fun ds => rfl⟩
  case mapZeroL | mapDriveL | mapZeroR | mapDriveR =>
    cases h
    exact ⟨[], appendsTo_writeLine fun ds => rfl⟩
  all_goals
    cases h
    exact ⟨[], (List.append_nil _).symm, fun ds => by rw [List.append_nil]; rfl⟩

/-- A phase code selects a micro-operation only (R95). -/
theorem isMicro_of_decodePhase {p : BitVec 4} {m : Instr} (h : decodePhase p = .ok m) : m.isMicro = true := by
  revert h
  revert p
  cases m <;> decide

/-- A SEQ_STEP performs the micro-operation that its phase decodes to. -/
theorem exec_seqStep_of_decodePhase {s : State} {m : Instr} (h : decodePhase s.seqPhase = .ok m) :
    exec .seqStep s = exec m s := by
  obtain ⟨-, hperforms, -⟩ := seqStepPerformsSelectedMicroOperation
  obtain ⟨heq, -⟩ := hperforms s m h
  exact heq

/-- The dispatch reads the phase, then performs a micro-operation. -/
theorem appendsTo_seqStep {s t : State} (h : exec .seqStep s = .next t) : ∃ rs, AppendsTo .seqStep s t rs := by
  obtain ⟨m, hm, he⟩ := exec_seqStep_decoded h
  have hmicro := isMicro_of_decodePhase hm
  obtain ⟨rs, hdiag, hsame⟩ := appendsTo_of_exec (by rintro rfl; cases hmicro) (by rintro rfl; cases hmicro) he
  exact ⟨rs, hdiag, fun ds => (exec_seqStep_of_decodePhase (s := s.withDiag ds) hm).trans (hsame ds)⟩

/-- Settles O55. -/
theorem noOperationReadsDiag : Obligations.NoOperationReadsDiag := by
  intro i s t h
  by_cases hreset : i = .reset
  · subst hreset
    cases h
    exact .inl ⟨rfl, rfl, fun ds => rfl⟩
  · refine .inr ⟨hreset, ?_⟩
    by_cases hseq : i = .seqStep
    · subst hseq
      exact appendsTo_seqStep h
    · exact appendsTo_of_exec hreset hseq h

/-! ### The capture registers the sequencer does not read -/

/-- `s` with other values of the registers that the sequencer may not read. -/
def State.withCaptures (s : State) (a b c d : Nat) : State := { s with tsL := a, refL := b, tsR := c, refR := d }

theorem writeLine_writePhase_withCaptures (s : State) (a b c d : Nat) (e : Channel) (dn : Direction) (v : Nat)
    (p : BitVec 4) :
    ((s.withCaptures a b c d).writeLine e dn v).writePhase p =
      ((s.writeLine e dn v).writePhase p).withCaptures a b c d := by
  cases e <;> cases dn <;> rfl

theorem gateObserve_withCaptures (s : State) (a b c d : Nat) :
    (s.withCaptures a b c d).gateObserve = s.gateObserve.withCaptures a b c d := by
  by_cases hp : PatternHolds s
  · rw [gateObserve_of_pattern hp, gateObserve_of_pattern (s := s.withCaptures a b c d) hp]
    rfl
  · rw [gateObserve_of_not_pattern hp, gateObserve_of_not_pattern (s := s.withCaptures a b c d) hp]
    rfl

/-- A micro-operation does the same with other values of `TS_c` and `REF_c`. -/
theorem exec_micro_withCaptures {m : Instr} {s t : State} (hm : m.isMicro = true) (h : exec m s = .next t)
    (a b c d : Nat) : exec m (s.withCaptures a b c d) = .next (t.withCaptures a b c d) := by
  cases m
  case edgeFallL | edgeRiseL | edgeFallR | edgeRiseR | seqStep | reset => cases hm
  case gateEval =>
    by_cases hv : s.gateVerdict = causeNone
    · rw [exec_gateEval_none s hv] at h
      cases h
      rw [exec_gateEval_none (s.withCaptures a b c d) hv, gateObserve_withCaptures]
      rfl
    · rw [exec_gateEval_release s hv] at h
      cases h
      rw [exec_gateEval_release (s.withCaptures a b c d) hv, gateObserve_withCaptures]
      rfl
  case mapZeroL | mapDriveL | mapZeroR | mapDriveR =>
    cases h
    exact congrArg _ (writeLine_writePhase_withCaptures ..)
  all_goals
    cases h
    rfl

/-- Settles O56: the phase, and so the micro-operation selected, is the same. -/
theorem sequencerReadsOnlyConditionedValues : Obligations.SequencerReadsOnlyConditionedValues := by
  intro s t a b c d h
  obtain ⟨m, hm, he⟩ := exec_seqStep_decoded h
  exact (exec_seqStep_of_decodePhase (s := s.withCaptures a b c d) hm).trans
    (exec_micro_withCaptures (isMicro_of_decodePhase hm) he a b c d)

end Sys2Proof.Machine

/-! ## The conditioner's and the mapper's values (42_conditioner.md, 43_mapper.md) -/

namespace Sys2Proof.Machine

/-! ### The conditioner (R160 to R168) -/

/-- Settles O26: the integers' dead-band is the naturals' after moving `DB` to the other side. -/
theorem condTakesFirstMatchingRule : Obligations.CondTakesFirstMatchingRule := by
  intro c v r1 r2 r3 r4
  have hband : (c.neutral < v + c.db ∧ v < c.neutral + c.db) ↔ r1 := by
    show _ ↔ ((c.neutral : Int) - c.db < v ∧ (v : Int) < c.neutral + c.db)
    omega
  have hcond : cond c v = if r1 then c.neutral else if r2 then c.absMax else if r3 then c.absMin
      else if r4 then c.neutral else v := by
    rw [cond_eq]
    simp only [hband]
    rfl
  rw [hcond]
  refine ⟨fun h1 => if_pos h1, fun h1 h2 => ?_, fun h1 h2 h3 => ?_, fun h1 h2 h3 h4 => ?_, fun h1 h2 h3 h4 => ?_⟩
  · rw [if_neg h1, if_pos h2]
  · rw [if_neg h1, if_neg h2, if_pos h3]
  · rw [if_neg h1, if_neg h2, if_neg h3, if_pos h4]
  · rw [if_neg h1, if_neg h2, if_neg h3, if_neg h4]

/-- The first matching rule with the default parameters. -/
theorem cond_default (v : Nat) : cond Config.default v =
    if 1450 < v ∧ v < 1550 then 1500 else if 1775 < v ∧ v < 2000 then 2000
    else if 1000 < v ∧ v < 1150 then 1000 else if v < 1000 ∨ 2000 < v then 1500 else v := by
  have hband : (1500 < v + 50 ∧ v < 1500 + 50) ↔ 1450 < v ∧ v < 1550 := by omega
  rw [cond_eq]
  exact if_congr hband rfl rfl

/-- The values that the conditioner passes through or results in, with the default parameters (R167). -/
def IsConditioned (r : Nat) : Prop :=
  r = 1000 ∨ (1150 ≤ r ∧ r ≤ 1450) ∨ r = 1500 ∨ (1550 ≤ r ∧ r ≤ 1775) ∨ r = 2000

theorem cond_default_isConditioned (v : Nat) : IsConditioned (cond Config.default v) := by
  unfold IsConditioned
  rw [cond_default]
  split_ifs <;> omega

theorem cond_default_eq_self {v : Nat} (h : IsConditioned v) : cond Config.default v = v := by
  unfold IsConditioned at h
  rw [cond_default]
  split_ifs <;> omega

/-- Settles O27: the results are fixed points, so the fixed points are the results. -/
theorem condDefaultValues : Obligations.CondDefaultValues := by
  intro v
  have hresult := cond_default_isConditioned v
  refine ⟨⟨fun hfix => ?_, cond_default_eq_self⟩, ?_, cond_default_eq_self hresult⟩
  · rw [hfix] at hresult
    exact hresult
  · rintro r rfl
    exact hresult

/-! ### The mapper (R183, R190, R191) -/

/-- Settles O31. -/
theorem dutyNeverExceedsFullScale : Obligations.DutyNeverExceedsFullScale :=
  ⟨duty_le, fun v => Nat.lt_succ_of_le (duty_le Config.default v)⟩

theorem mag_default_of_lt {v : Nat} (h : v < 1500) : mag Config.default v = 1500 - (v : Int) := by
  have hmag : mag Config.default v = ((3000 : Int) - v) - 1500 := mag_of_lt (k := Config.default) h
  omega

theorem mag_default_of_gt {v : Nat} (h : 1500 < v) : mag Config.default v = (v : Int) - 1500 :=
  mag_of_gt (k := Config.default) h

/-- Values at one distance from neutral have one magnitude, and so one duty. -/
theorem duty_default_symmetric {k : Nat} (h : k ≤ 500) :
    duty Config.default (1500 - k) = duty Config.default (1500 + k) := by
  rcases Nat.eq_zero_or_pos k with rfl | hk
  · rfl
  · have hlow : mag Config.default (1500 - k) = k := by
      rw [mag_default_of_lt (by omega)]
      omega
    have hhigh : mag Config.default (1500 + k) = k := by
      rw [mag_default_of_gt (by omega)]
      omega
    have hlowne : 1500 - k ≠ Config.default.neutral := show 1500 - k ≠ 1500 by omega
    have hhighne : 1500 + k ≠ Config.default.neutral := show 1500 + k ≠ 1500 by omega
    rw [duty_of_ne hlowne, duty_of_ne hhighne, hlow, hhigh]

/-- Settles O32. -/
theorem dutyIsSymmetricAboutNeutral : Obligations.DutyIsSymmetricAboutNeutral :=
  ⟨fun _ => duty_default_symmetric, fun _ => mag_default_of_lt, fun _ h _ => dir_of_gt (k := Config.default) h,
    fun _ _ h => dir_of_le (k := Config.default) h, by decide, by decide, by decide⟩

end Sys2Proof.Machine

/-! ## Pulses and held values along a run (40_capture.md section 4, 70_reset_and_hazards.md section 3) -/

namespace Sys2Proof.Machine

/-! ### What an edge writes to its channel -/

/-- Settles O25. -/
theorem sampleDifferenceIsElapsedTime : Obligations.SampleDifferenceIsElapsedTime := by
  intro W a b h
  have hmod : wsub W (b % 2 ^ W) (a % 2 ^ W) = (b - a) % 2 ^ W := wsub_samples W b a h
  exact ⟨hmod, fun hlt => hmod.trans (Nat.mod_eq_of_lt hlt)⟩

/-- A conditioned value is kept or the conditioner's (R123 to R127). -/
theorem edge_condOf {c : Channel} {i : Instr} {u t : State} (hi : i = riseOf c ∨ i = fallOf c)
    (he : exec i u = .next t) (e : Channel) : t.condOf e = u.condOf e ∨ ∃ v, t.condOf e = cond u.cfg v := by
  obtain ⟨⟨-, -, hother⟩, -⟩ := exec_edge_captureFrame hi he
  by_cases hce : e = c.other
  · subst hce
    exact .inl hother
  · obtain rfl : e = c := by cases e <;> cases c <;> trivial
    cases e <;> rcases hi with rfl | rfl <;> cases he
    · exact .inl rfl
    · exact .inr ⟨_, rfl⟩
    · exact .inr ⟨_, rfl⟩
    · exact .inr ⟨_, rfl⟩

/-- Each conditioned value is the reset value or one of R167, in a block with the default parameters. -/
def ConditionedInSet (s : State) : Prop :=
  s.cfg = Config.default ∧ ∀ c, s.condOf c = 0 ∨ IsConditioned (s.condOf c)

theorem ConditionedInSet.performed {x : Stimulus} {u t : State} (h : ConditionedInSet u) (hx : Performed x u t) :
    ConditionedInSet t := by
  obtain ⟨hcfg, hcond⟩ := h
  refine ⟨hx.cfg_eq.trans hcfg, fun e => ?_⟩
  cases hx with
  | edge c i hw hi hd he =>
    rcases edge_condOf hi he e with hkept | ⟨v, hv⟩
    · rw [hkept]
      exact hcond e
    · rw [hv, hcfg]
      exact .inr (cond_default_isConditioned v)
  | seq hw hm =>
    obtain ⟨⟨⟨-, -, hL⟩, -, -, hR⟩, -⟩ := hm.frame
    cases e
    · rw [hL]
      exact hcond .L
    · rw [hR]
      exact hcond .R
  | reset hw => exact .inl (initial_condOf ..)

/-- Settles O28: an invariant of every step. -/
theorem conditionedValuesStayInSet : Obligations.ConditionedValuesStayInSet := by
  rintro T xs k t c h r rfl
  have hinit : ConditionedInSet (State.initial Config.default T xs) := ⟨rfl, fun e => .inl (initial_condOf ..)⟩
  have hset := runSteps_induct (step_keeps (P := ConditionedInSet) (fun _ _ _ hs => hs) fun _ _ _ hu hx =>
    hu.performed hx) hinit h
  exact hset.2 c

/-! ### Quiet channels -/

/-- A stimulus that is no RESET and no edge of channel `c` leaves the channel's registers. -/
theorem Performed.sameCapture {c : Channel} {x : Stimulus} {u t : State} (h : Performed x u t)
    (hreset : x.word ≠ 0x80#8) (hquiet : ¬ edgeWord c x.word) : SameCapture c u t := by
  cases h with
  | edge e i hw hi hd he =>
    obtain ⟨hother, -⟩ := exec_edge_captureFrame hi he
    cases c <;> cases e
    · exact absurd hw hquiet
    · exact hother
    · exact hother
    · exact absurd hw hquiet
  | seq hw hm =>
    obtain ⟨⟨hL, hR⟩, -⟩ := hm.frame
    cases c
    · exact hL
    · exact hR
  | reset hw => exact absurd hw hreset

theorem SameCapture.trans {c : Channel} {s t u : State} (hst : SameCapture c s t) (htu : SameCapture c t u) :
    SameCapture c s u := by
  obtain ⟨hts, href, hcond⟩ := hst
  obtain ⟨hts', href', hcond'⟩ := htu
  exact ⟨hts'.trans hts, href'.trans href, hcond'.trans hcond⟩

/-- `u` has channel `c`'s registers and the parameters from `s`, and its time is not before. -/
def KeptSince (c : Channel) (s u : State) : Prop := SameCapture c s u ∧ u.cfg = s.cfg ∧ s.time ≤ u.time

theorem KeptSince.performed {c : Channel} {s u v : State} {x : Stimulus} {ys : List Stimulus} (h : KeptSince c s u)
    (hle : u.time ≤ x.t) (hx : Performed x (u.advance x ys) v) (hquiet : x.word ≠ 0x80#8 ∧ ¬ edgeWord c x.word) :
    KeptSince c s v := by
  obtain ⟨hcapture, hcfg, htime⟩ := h
  obtain ⟨hcfg', htime', -⟩ := hx.env
  have hkept : SameCapture c u v := hx.sameCapture hquiet.1 hquiet.2
  exact ⟨hcapture.trans hkept, hcfg'.trans hcfg, htime' ▸ htime.trans hle⟩

/-- Along quiet stimuli the channel's registers and the parameters stay. -/
theorem runSteps_quiet {c : Channel} {mid rest : List Stimulus} {s t : State} (hs : s.stimuli = mid ++ rest)
    (hquiet : QuietFor c mid) (h : runSteps mid.length s = .next t) : KeptSince c s t ∧ t.stimuli = rest := by
  refine ⟨?_, by rw [runSteps_stimuli h, hs, List.drop_left]⟩
  refine runSteps_count_induct (P := fun x => x.word ≠ 0x80#8 ∧ ¬ edgeWord c x.word) (I := fun _ => KeptSince c s)
    (fun _ _ _ _ _ hx hkept hle hp => hkept.performed hle hp hx) (n := 0) ?_ ⟨⟨rfl, rfl, rfl⟩, rfl, le_rfl⟩ h
  rw [hs, List.take_left]
  exact hquiet

/-- A rise latches its time (R123, R126). -/
theorem exec_riseOf_ts {c : Channel} {u t : State} (h : exec (riseOf c) u = .next t) : t.ts c = u.now := by
  cases c <;> cases h <;> rfl

/-- A pulse of channel `c`, whatever else happens between its edges: the fall is performed in a state in which the
time since the rise is measured. -/
theorem pulse_measured {c : Channel} {s t : State} {x y : Stimulus} {mid rest : List Stimulus}
    (hs : s.stimuli = x :: (mid ++ y :: rest)) (hrise : decodeByte x.word = .ok (riseOf c))
    (hfall : decodeByte y.word = .ok (fallOf c)) (hquiet : QuietFor c mid)
    (h : runSteps (mid.length + 2) s = .next t) :
    ∃ v, exec (fallOf c) v = .next t ∧ v.cfg = s.cfg ∧ v.measured c = (y.t - x.t) % 2 ^ s.cfg.clkBits := by
  obtain ⟨u, hu, hrun⟩ := runSteps_succ (k := mid.length + 1) h
  obtain ⟨-, heu⟩ := step_decoded hu hs hrise
  obtain ⟨hcfgu, htimeu, hstimuliu⟩ := exec_env heu
  obtain ⟨w, hmid, hlast⟩ := runSteps_split (n := 1) hrun
  obtain ⟨⟨⟨hts, -⟩, hcfgw, htimew⟩, hstimuliw⟩ := runSteps_quiet hstimuliu hquiet hmid
  obtain ⟨t', ht', hdone⟩ := runSteps_succ (k := 0) hlast
  obtain rfl : t' = t := Host.Outcome.next.inj hdone
  obtain ⟨hyw, het⟩ := step_decoded ht' hstimuliw hfall
  have hcfg : w.cfg = s.cfg := hcfgw.trans hcfgu
  have hlatched : w.ts c = wmod s.cfg.clkBits x.t := hts.trans (exec_riseOf_ts heu)
  have hxy : x.t ≤ y.t := by
    have hxu : u.time = x.t := htimeu
    omega
  refine ⟨w.advance y rest, het, hcfg, ?_⟩
  rw [State.measured, State.sub, advance_ts, advance_now, advance_cfg, hcfg, hlatched, wsub_samples _ _ _ hxy]

/-- Settles O22. -/
theorem leftPulseWidthIsHighTime : Obligations.LeftPulseWidthIsHighTime := by
  intro s t x y mid rest hs hx hy hquiet hlt h
  obtain ⟨v, hv, hcfg, hmeasured⟩ := pulse_measured (c := .L) hs (decodeByte_of_word hx rfl)
    (decodeByte_of_word hy rfl) hquiet h
  rw [Nat.mod_eq_of_lt hlt] at hmeasured
  obtain rfl : v.condition .L (v.measured .L) = t := Host.Outcome.next.inj hv
  refine ⟨(condition_ref_same v .L _).trans hmeasured, ?_⟩
  rw [← hmeasured, ← hcfg]
  exact condition_condOf_same v .L _

/-- The rows of R132's table: the inverted reading of a width, conditioned with the default parameters. -/
theorem cond_default_inverted {w r : Nat} (hw : w < 2 ^ 32) (hr : (r : Int) = (3000 - (w : Int)) % 2 ^ 32) :
    cond Config.default r = if 1000 < w ∧ w < 1225 then 2000 else if 1850 < w ∧ w < 2000 then 1000
      else if 1450 < w ∧ w < 1550 then 1500 else if w < 1000 ∨ 2000 < w then 1500 else 3000 - w := by
  have hreading : (w ≤ 3000 ∧ r = 3000 - w) ∨ (3000 < w ∧ 3000 < r) := by omega
  rw [cond_default]
  split_ifs <;> omega

/-- Settles O23. -/
theorem rightPulseReadingByWidth : Obligations.RightPulseReadingByWidth := by
  intro s t x y mid rest w hs hx hy hquiet hyt hlt h
  obtain ⟨v, hv, hcfg, hmeasured⟩ := pulse_measured (c := .R) hs (decodeByte_of_word hx rfl)
    (decodeByte_of_word hy rfl) hquiet h
  have hwidth : y.t - x.t = w := by omega
  rw [hwidth, Nat.mod_eq_of_lt hlt] at hmeasured
  obtain rfl : v.rightCommon = t := Host.Outcome.next.inj hv
  have hreading : (v.rightCommon.refR : Int) = ((s.cfg.corr : Int) - w) % 2 ^ s.cfg.clkBits := by
    have href : v.rightCommon.refR = v.sub v.cfg.corr (v.measured .R) := condition_ref_same v .R _
    rw [href, hmeasured, State.sub, wsub_cast, hcfg]
    push_cast
    rfl
  refine ⟨hreading, fun hdefault => ?_⟩
  rw [hdefault] at hreading hlt hcfg
  have hcond : v.rightCommon.condR = cond v.cfg v.rightCommon.refR := rfl
  rw [hcond, hcfg]
  exact cond_default_inverted hlt hreading

/-- Settles O24: the rise reads `CORR`, which is conditioned to neutral, and quiet stimuli keep it. -/
theorem rightChannelNeutralWhileHigh : Obligations.RightChannelNeutralWhileHigh := by
  intro s t x mid rest hdefault hs hx hquiet h
  obtain ⟨u, hu, hrun⟩ := runSteps_succ h
  obtain ⟨-, heu⟩ := step_decoded hu hs (decodeByte_of_word (i := .edgeRiseR) hx rfl)
  obtain ⟨u', hu', -, -, -, -, hneutral, -⟩ := edgeRiseRReadsCorrection.2 (s.advance x (mid ++ rest))
  obtain rfl : u' = u := Host.Outcome.next.inj (hu'.symm.trans heu)
  obtain ⟨-, hcond⟩ := hneutral hdefault
  obtain ⟨-, -, hstimuli⟩ := exec_env heu
  obtain ⟨⟨⟨-, -, hkept⟩, -⟩, -⟩ := runSteps_quiet hstimuli hquiet hrun
  exact hkept.trans hcond

/-! ### A channel that never conditions (R261) -/

/-- The words whose operation conditions a value of channel `c` (R123 to R127). -/
def conditioningWord (c : Channel) (w : BitVec 8) : Prop :=
  match c with
  | .L => w = 0x00#8
  | .R => w = 0x02#8 ∨ w = 0x03#8

/-- With the default parameters, and no stimulus to come that conditions channel `c`: the channel's conditioned value
and snapshot are at their reset values. -/
def NeverConditioned (c : Channel) (s : State) : Prop :=
  s.cfg = Config.default ∧ (∀ x ∈ s.stimuli, ¬ conditioningWord c x.word) ∧ s.condOf c = 0 ∧ s.snap c = 0

/-- An edge that does not condition channel `c` leaves its conditioned value: it is the other channel's, or a left
rise. -/
theorem edge_condOf_of_not_conditioning {c e : Channel} {i : Instr} {x : Stimulus} {u t : State}
    (hi : i = riseOf e ∨ i = fallOf e) (hd : decodeByte x.word = .ok i) (he : exec i u = .next t)
    (hx : ¬ conditioningWord c x.word) : t.condOf c = u.condOf c := by
  rcases decodeByte_cases hd with ⟨hw, rfl⟩ | ⟨hw, rfl⟩ | ⟨hw, rfl⟩ | ⟨hw, rfl⟩ | ⟨hw, rfl⟩ | ⟨hw, rfl⟩ <;>
    cases c
  case inr.inr.inr.inr.inl.L | inr.inr.inr.inr.inl.R | inr.inr.inr.inr.inr.L | inr.inr.inr.inr.inr.R =>
    cases e <;> rcases hi with hi | hi <;> cases hi
  case inl.L => exact absurd hw hx
  case inr.inr.inl.R => exact absurd (.inl hw) hx
  case inr.inr.inr.inl.R => exact absurd (.inr hw) hx
  all_goals
    cases he
    rfl

/-- A move of the sequencer keeps a snapshot or copies the conditioned value. -/
theorem SeqMove.snap {s t : State} (h : SeqMove s t) (c : Channel) : t.snap c = s.snap c ∨ t.snap c = s.condOf c := by
  cases h with
  | gateReadL hp | loopReadL hp =>
    cases c
    · exact .inr rfl
    · exact .inl rfl
  | gateReadR hp | loopReadR hp =>
    cases c
    · exact .inl rfl
    · exact .inr rfl
  | gateBack hp hv | gateRelease hp hv => exact .inl (by simp [release_eq, gateObserve_snap])
  | mapZeroL hp | mapZeroR hp => exact .inl (by simp [zeroOther_eq])
  | mapDriveL hp | mapDriveR hp => exact .inl (by simp [driveSelected_eq])
  | gateStart hp | loopDiag hp => cases c <;> exact .inl rfl

theorem NeverConditioned.step {c : Channel} {s t : State} (h : NeverConditioned c s) (hstep : step s = .next t) :
    NeverConditioned c t := by
  obtain ⟨hcfg, hquiet, hcond, hsnap⟩ := h
  rcases step_performed hstep with ⟨-, rfl⟩ | ⟨x, rest, hs, -, hx⟩
  · exact ⟨hcfg, hquiet, hcond, hsnap⟩
  obtain ⟨hcfg', -, hstimuli⟩ := hx.env
  rw [hs] at hquiet
  obtain ⟨hxquiet, hrest⟩ := List.forall_mem_cons.mp hquiet
  refine ⟨hcfg'.trans hcfg, by rw [hstimuli]; exact hrest, ?_⟩
  cases hx with
  | edge e i hw hi hd he =>
    obtain ⟨⟨-, -, hL, hR, -⟩, -⟩ := edge_frame hi he
    refine ⟨(edge_condOf_of_not_conditioning hi hd he hxquiet).trans hcond, ?_⟩
    cases c
    · exact hL.trans hsnap
    · exact hR.trans hsnap
  | seq hw hm =>
    obtain ⟨⟨⟨-, -, hL⟩, -, -, hR⟩, -⟩ := hm.frame
    refine ⟨?_, ?_⟩
    · cases c
      · exact hL.trans hcond
      · exact hR.trans hcond
    · rcases hm.snap c with hkept | hread
      · exact hkept.trans hsnap
      · exact hread.trans hcond
  | reset hw => exact ⟨initial_condOf .., initial_snap ..⟩

theorem NeverConditioned.condOf_eq {c : Channel} {s : State} (h : NeverConditioned c s) : s.condOf c = 0 := by
  obtain ⟨-, -, hcond, -⟩ := h
  exact hcond

theorem neverConditioned_of_run {c : Channel} {T : Nat} {xs : List Stimulus} {k : Nat} {t : State}
    (hquiet : ∀ x ∈ xs, ¬ conditioningWord c x.word)
    (h : runSteps k (State.initial Config.default T xs) = .next t) : NeverConditioned c t :=
  runSteps_induct (fun _ _ hs hstep => hs.step hstep) ⟨rfl, hquiet, initial_condOf .., initial_snap ..⟩ h

/-- A motor that follows a snapshot of 0 is driven full backward, with the default parameters (R191). -/
theorem MotorFollows.full_backward {c : Channel} {s : State} (h : MotorFollows c s) (hs : NeverConditioned c s) :
    s.sel c .forward = 0 ∧ s.sel c .backward = 255 := by
  obtain ⟨hcfg, -, -, hsnap⟩ := hs
  obtain ⟨hdriven, hoff⟩ := h
  have hdir : dir Config.default 0 = .backward := by decide
  have hduty : duty Config.default 0 = 255 := by decide
  rw [hcfg, hsnap, hdir] at hdriven hoff
  exact ⟨hoff, hdriven.trans hduty⟩

/-- Settles O53: after MAP_DRIVE_c the motor follows a snapshot that is still 0. -/
theorem unconditionedChannelDrivesFullBackward : Obligations.UnconditionedChannelDrivesFullBackward := by
  intro T xs k t h
  have hsafe := driveSafe_of_run h
  refine ⟨fun hquiet => ?_, fun hquiet => ?_⟩
  · have hnever := neverConditioned_of_run (c := .L) hquiet h
    exact ⟨hnever.condOf_eq, fun h8 => (hsafe.drivenL h8).full_backward hnever⟩
  · have hnever := neverConditioned_of_run (c := .R) (fun x hx => not_or.mpr (hquiet x hx)) h
    exact ⟨hnever.condOf_eq, fun h10 => (hsafe.drivenR h10).full_backward hnever⟩

end Sys2Proof.Machine

/-! ## Iterations of the control loop (44_control_loop.md, 70_reset_and_hazards.md R266) -/

namespace Sys2Proof.Machine

/-! ### What a move of the loop does to one channel -/

/-- How far behind phase 4 the loop reads channel `c`, zeroes its motor's other line and drives the selected one
(R40). -/
def readAt : Channel → Nat
  | .L => 0
  | .R => 1

def zeroAt : Channel → Nat
  | .L => 2
  | .R => 4

def driveAt : Channel → Nat
  | .L => 3
  | .R => 5

/-- A move of the loop, seen from channel `c`: its read, its zeroing, its driving, or nothing of it. -/
inductive ChannelMove (c : Channel) (s t : State) : Prop
  | read (hp : s.seqPhase.toNat = 4 + readAt c) (hsnap : t.snap c = s.condOf c) (hmotor : SameMotor c s t)
  | zero (p : BitVec 4) (hp : s.seqPhase.toNat = 4 + zeroAt c) (ht : t = s.zeroOther c p)
  | drive (p : BitVec 4) (hp : s.seqPhase.toNat = 4 + driveAt c) (ht : t = s.driveSelected c p)
  | none (hread : s.seqPhase.toNat ≠ 4 + readAt c) (hzero : s.seqPhase.toNat ≠ 4 + zeroAt c)
      (hdrive : s.seqPhase.toNat ≠ 4 + driveAt c) (hsnap : SameSnap c s t) (hmotor : SameMotor c s t)

theorem SeqMove.channelMove {s t : State} (h : SeqMove s t) (h4 : 4 ≤ s.seqPhase.toNat) (c : Channel) :
    ChannelMove c s t := by
  cases h with
  | gateStart hp | gateReadL hp | gateReadR hp | gateBack hp | gateRelease hp => simp [hp] at h4
  | loopReadL hp =>
    cases c
    · exact .read (by simp [hp, readAt]) rfl fun _ => rfl
    · exact .none (by simp [hp, readAt]) (by simp [hp, zeroAt]) (by simp [hp, driveAt]) rfl fun _ => rfl
  | loopReadR hp =>
    cases c
    · exact .none (by simp [hp, readAt]) (by simp [hp, zeroAt]) (by simp [hp, driveAt]) rfl fun _ => rfl
    · exact .read (by simp [hp, readAt]) rfl fun _ => rfl
  | mapZeroL hp =>
    obtain ⟨hmotor, -, -, hsnap, -⟩ := motorFrame_zeroOther s .L phDriveL
    cases c
    · exact .zero _ (by simp [hp, zeroAt]) rfl
    · exact .none (by simp [hp, readAt]) (by simp [hp, zeroAt]) (by simp [hp, driveAt]) hsnap hmotor
  | mapDriveL hp =>
    obtain ⟨hmotor, -, -, hsnap, -⟩ := motorFrame_driveSelected s .L phZeroR
    cases c
    · exact .drive _ (by simp [hp, driveAt]) rfl
    · exact .none (by simp [hp, readAt]) (by simp [hp, zeroAt]) (by simp [hp, driveAt]) hsnap hmotor
  | mapZeroR hp =>
    obtain ⟨hmotor, -, hsnap, -⟩ := motorFrame_zeroOther s .R phDriveR
    cases c
    · exact .none (by simp [hp, readAt]) (by simp [hp, zeroAt]) (by simp [hp, driveAt]) hsnap hmotor
    · exact .zero _ (by simp [hp, zeroAt]) rfl
  | mapDriveR hp =>
    obtain ⟨hmotor, -, hsnap, -⟩ := motorFrame_driveSelected s .R phLDiag
    cases c
    · exact .none (by simp [hp, readAt]) (by simp [hp, zeroAt]) (by simp [hp, driveAt]) hsnap hmotor
    · exact .drive _ (by simp [hp, driveAt]) rfl
  | loopDiag hp =>
    cases c
    all_goals
      exact .none (by simp [hp, readAt]) (by simp [hp, zeroAt]) (by simp [hp, driveAt]) rfl fun _ => rfl

/-! ### How far an iteration has come -/

/-- `n` counts the moves of the loop, 0 standing for phase 4, and an iteration begins at the move `base`: from its
read of channel `c` on the snapshot is the held conditioned value `v`, from its zeroing on the motor's other line is
0, and from its driving on the motor follows (R204). Later iterations keep all three. -/
structure LoopProgress (c : Channel) (v base n : Nat) (s : State) : Prop where
  phase : s.seqPhase.toNat = 4 + n % 7
  held : s.condOf c = v
  read : base + readAt c < n → s.snap c = v
  zeroed : base + zeroAt c < n → s.otherLine c (dir s.cfg (s.snap c)) = 0
  driven : base + driveAt c < n → MotorFollows c s

/-- Channel `c` and its motor as they are keep the progress. -/
theorem LoopProgress.congr {c : Channel} {v base n : Nat} {s t : State} (h : LoopProgress c v base n s)
    (hphase : t.seqPhase = s.seqPhase) (hcfg : t.cfg = s.cfg) (hcond : t.condOf c = s.condOf c)
    (hsnap : SameSnap c s t) (hmotor : SameMotor c s t) : LoopProgress c v base n t where
  phase := by rw [hphase]; exact h.phase
  held := hcond.trans h.held
  read hn := hsnap.trans (h.read hn)
  zeroed hn := by rw [otherLine_eq, hmotor, hsnap, hcfg]; exact h.zeroed hn
  driven hn := (h.driven hn).congr hcfg hsnap hmotor

theorem readAt_lt_zeroAt (c : Channel) : readAt c < zeroAt c := by cases c <;> decide

theorem zeroAt_lt_driveAt (c : Channel) : zeroAt c < driveAt c := by cases c <;> decide

theorem driveAt_lt (c : Channel) : driveAt c < 7 := by cases c <;> decide

/-- A move counts one, whatever the channel. -/
theorem LoopProgress.seqMove {c : Channel} {v base n : Nat} {s t : State} (h : LoopProgress c v base n s)
    (hbase : 7 ∣ base) (hm : SeqMove s t) : LoopProgress c v base (n + 1) t := by
  obtain ⟨⟨⟨-, -, hcondL⟩, -, -, hcondR⟩, hcfg, -⟩ := hm.frame
  have hphase := h.phase
  have hnext : t.seqPhase.toNat = 4 + (n + 1) % 7 := by
    have := hm.loop_phase (by omega)
    omega
  have hheld : t.condOf c = v := by
    cases c
    · exact hcondL.trans h.held
    · exact hcondR.trans h.held
  have hread := readAt_lt_zeroAt c
  have hzero := zeroAt_lt_driveAt c
  have hdrive := driveAt_lt c
  cases hm.channelMove (by omega) c with
  | read hp hsnap hmotor =>
    have hsnap' : t.snap c = v := hsnap.trans h.held
    have hkept : base + zeroAt c < n + 1 → SameSnap c s t := fun hn => hsnap'.trans (h.read (by omega)).symm
    refine ⟨hnext, hheld, fun _ => hsnap', fun hn => ?_, fun hn => ?_⟩
    · rw [otherLine_eq, hmotor, hkept hn, hcfg]
      exact h.zeroed (by omega)
    · exact (h.driven (by omega)).congr hcfg (hkept (by omega)) hmotor
  | zero p hp ht =>
    subst ht
    exact ⟨hnext, hheld, fun hn => by simpa [zeroOther_eq] using h.read (by omega),
      fun _ => zeroOther_otherLine s c p, fun hn => (h.driven (by omega)).zeroOther p⟩
  | drive p hp ht =>
    subst ht
    have hfollows : base + zeroAt c < n → MotorFollows c (s.driveSelected c p) := fun hn =>
      driveSelected_follows (h.zeroed hn) p
    exact ⟨hnext, hheld, fun hn => by simpa [driveSelected_eq] using h.read (by omega),
      fun hn => (hfollows (by omega)).2, fun hn => hfollows (by omega)⟩
  | none hpread hpzero hpdrive hsnap hmotor =>
    refine ⟨hnext, hheld, fun hn => hsnap.trans (h.read (by omega)), fun hn => ?_, fun hn => ?_⟩
    · rw [otherLine_eq, hmotor, hsnap, hcfg]
      exact h.zeroed (by omega)
    · exact (h.driven (by omega)).congr hcfg hsnap hmotor

/-- At the start nothing is asked of an iteration still to begin. -/
theorem loopProgress_start {c : Channel} {base n : Nat} {s : State} (hphase : s.seqPhase.toNat = 4 + n % 7)
    (hn : n ≤ base) : LoopProgress c (s.condOf c) base n s :=
  ⟨hphase, rfl, fun h => by omega, fun h => by omega, fun h => by omega⟩

theorem LoopProgress.advance {c : Channel} {v base n : Nat} {s : State} (h : LoopProgress c v base n s) (x : Stimulus)
    (rest : List Stimulus) : LoopProgress c v base n (s.advance x rest) :=
  h.congr rfl rfl rfl rfl fun _ => rfl

/-! ### A whole iteration -/

/-- After `n` of the seven moves from the state `s`: both channels' progress, the report, and what no move of the loop
writes. -/
structure IterationProgress (s : State) (n : Nat) (u : State) : Prop where
  cfg : u.cfg = s.cfg
  progress : ∀ c, LoopProgress c (s.condOf c) 0 n u
  report : u.diag = if n < 7 then s.diag else s.diag ++ [.loopReport s.condL s.condR]
  captures : SameCaptures s u
  gate : SameGate s u
  enables : SameEnables s u

theorem SameCaptures.trans {s t u : State} (hst : SameCaptures s t) (htu : SameCaptures t u) : SameCaptures s u :=
  ⟨hst.1.trans htu.1, hst.2.trans htu.2⟩

theorem SameGate.trans {s t u : State} (hst : SameGate s t) (htu : SameGate t u) : SameGate s u := by
  obtain ⟨hT0, hstreak, hcause⟩ := hst
  obtain ⟨hT0', hstreak', hcause'⟩ := htu
  exact ⟨hT0'.trans hT0, hstreak'.trans hstreak, hcause'.trans hcause⟩

theorem SameEnables.trans {s t u : State} (hst : SameEnables s t) (htu : SameEnables t u) : SameEnables s u :=
  ⟨htu.1.trans hst.1, htu.2.trans hst.2⟩

/-- A move of the iteration; the seventh appends the report of the snapshots, which are the values at the start. -/
theorem IterationProgress.seqMove {s u t : State} {n : Nat} (h : IterationProgress s n u) (hn : n < 7)
    (hm : SeqMove u t) : IterationProgress s (n + 1) t := by
  have hphase : u.seqPhase.toNat = 4 + n := by rw [(h.progress .L).phase, Nat.mod_eq_of_lt hn]
  obtain ⟨hgate, henables⟩ := hm.loop_frame (by omega)
  obtain ⟨hcaptures, hcfg, -⟩ := hm.frame
  refine ⟨hcfg.trans h.cfg, fun c => (h.progress c).seqMove (dvd_zero 7) hm, ?_, h.captures.trans hcaptures,
    h.gate.trans hgate, h.enables.trans henables⟩
  obtain ⟨hkept, -, happended⟩ := hm.diag
  have hdiag := h.report
  rw [if_pos hn] at hdiag
  by_cases h6 : n = 6
  · have hreport := happended (BitVec.eq_of_toNat_eq (by simp [hphase, h6]))
    have hL : u.snapL = s.condL := (h.progress .L).read (by simp [h6, readAt])
    have hR : u.snapR = s.condR := (h.progress .R).read (by simp [h6, readAt])
    rw [if_neg (by omega), hreport, hdiag, hL, hR]
  · have heval : u.seqPhase ≠ phGEval := by
      rintro hp
      simp [hp] at hphase
      omega
    have hlast : u.seqPhase ≠ phLDiag := by
      rintro hp
      simp [hp] at hphase
      omega
    rw [if_pos (by omega), hkept heval hlast, hdiag]

theorem IterationProgress.advance {s u : State} {n : Nat} (h : IterationProgress s n u) (x : Stimulus)
    (rest : List Stimulus) : IterationProgress s n (u.advance x rest) :=
  ⟨h.cfg, fun c => (h.progress c).advance x rest, h.report, h.captures, h.gate, h.enables⟩

/-- A SEQ_STEP counts as a move, and after the seventh nothing is said. -/
theorem IterationProgress.performed {s u t : State} {x : Stimulus} {rest : List Stimulus} {n : Nat}
    (h : n ≤ 7 → IterationProgress s n u) (hw : x.word = 0x40#8) (hx : Performed x (u.advance x rest) t)
    (hn : n + seqMoves x ≤ 7) : IterationProgress s (n + seqMoves x) t := by
  rw [seqMoves_of_seq hw] at hn ⊢
  exact ((h (by omega)).advance x rest).seqMove (by omega) (hx.seqMove hw)

theorem seqCount_of_all {xs rest : List Stimulus} (h : ∀ x ∈ xs, x.word = 0x40#8) :
    seqCount xs.length (xs ++ rest) = xs.length := by
  induction xs with
  | nil => rfl
  | cons x xs ih =>
    obtain ⟨hx, hxs⟩ := List.forall_mem_cons.mp h
    rw [List.length_cons, List.cons_append, seqCount_cons, seqMoves_of_seq hx, ih hxs, Nat.add_comm]

/-- Settles O44: seven moves complete the iteration of both channels. -/
theorem loopIterationDrivesBothMotors : Obligations.LoopIterationDrivesBothMotors := by
  intro s xs rest hp hs hlen hplain hseq
  obtain ⟨t, ht⟩ := runSteps_plain hs hplain (by simp [hp])
  have hstart : IterationProgress s 0 s :=
    ⟨rfl, fun c => loopProgress_start (by simp [hp]) le_rfl, rfl, ⟨⟨rfl, rfl, rfl⟩, rfl, rfl, rfl⟩, ⟨rfl, rfl, rfl⟩,
      rfl, rfl⟩
  have hend := runSteps_count_induct (P := fun x => x.word = 0x40#8) (I := fun n u => n ≤ 7 → IterationProgress s n u)
    (fun _ _ _ _ _ hw h _ hx => IterationProgress.performed h hw hx) (n := 0)
    (by rw [hs, List.take_left]; exact hseq) (fun _ => hstart) ht
  rw [hs, seqCount_of_all hseq, hlen] at hend
  have hdone : IterationProgress s 7 t := hend le_rfl
  have hsnap : ∀ c, t.snap c = s.condOf c := fun c => (hdone.progress c).read (by cases c <;> decide)
  refine ⟨t, hlen ▸ ht, BitVec.eq_of_toNat_eq (hdone.progress .L).phase, hsnap .L, hsnap .R, fun c => ?_, hdone.report,
    hdone.captures, hdone.gate, hdone.enables, by rw [runSteps_stimuli ht, hs, List.drop_left]⟩
  have hfollows := (hdone.progress c).driven (by cases c <;> decide)
  rwa [MotorFollows, hdone.cfg, hsnap c] at hfollows

/-! ### A channel whose input has stopped (R266) -/

/-- While channel `c` is quiet in the loop: its registers and the enables are those of `s`, and its motor's progress
counts the moves. -/
structure HeldProgress (c : Channel) (s : State) (base n : Nat) (u : State) : Prop where
  capture : SameCapture c s u
  enables : SameEnables s u
  progress : LoopProgress c (s.condOf c) base n u

theorem HeldProgress.performed {c : Channel} {s u t : State} {base n : Nat} {x : Stimulus} {rest : List Stimulus}
    (h : HeldProgress c s base n u) (hbase : 7 ∣ base) (hquiet : x.word ≠ 0x80#8 ∧ ¬ edgeWord c x.word)
    (hx : Performed x (u.advance x rest) t) : HeldProgress c s base (n + seqMoves x) t := by
  obtain ⟨hreset, hedge⟩ := hquiet
  have hphase := h.progress.phase
  have hcapture : SameCapture c u t := hx.sameCapture hreset hedge
  obtain ⟨henables, -⟩ := hx.loop hreset (by rw [advance_seqPhase]; omega) (by rw [advance_seqPhase]; omega)
  refine ⟨h.capture.trans hcapture, h.enables.trans henables, ?_⟩
  cases hx with
  | edge e i hw hi hd he =>
    obtain ⟨⟨hp, -, hsnapL, hsnapR, hmotorL, hmotorR, -⟩, hcfg, -⟩ := edge_frame hi he
    obtain ⟨-, -, hcond⟩ := hcapture
    rw [seqMoves_of_ne (edgeWord_ne_seq hw)]
    cases c
    · exact h.progress.congr hp hcfg hcond hsnapL hmotorL
    · exact h.progress.congr hp hcfg hcond hsnapR hmotorR
  | seq hw hm =>
    rw [seqMoves_of_seq hw]
    exact (h.progress.advance x rest).seqMove hbase hm
  | reset hw => exact absurd hw hreset

/-- The first whole iteration from phase `p` on begins at phase 4: now, or when the one in progress is complete. -/
def iterationBase (p : Nat) : Nat := if p = 4 then 0 else 7

/-- Settles O45: an iteration of seven moves, begun at once or after at most six that complete the one in progress. -/
theorem lastCommandHeldWithoutSignal : Obligations.LastCommandHeldWithoutSignal := by
  intro c k s t h4 h10 hquiet hrun
  have hbase : 7 ∣ iterationBase s.seqPhase.toNat := by
    unfold iterationBase
    split_ifs <;> decide
  have hle : s.seqPhase.toNat - 4 ≤ iterationBase s.seqPhase.toNat := by
    unfold iterationBase
    split_ifs <;> omega
  have hstart : HeldProgress c s (iterationBase s.seqPhase.toNat) (s.seqPhase.toNat - 4) s :=
    ⟨⟨rfl, rfl, rfl⟩, ⟨rfl, rfl⟩, loopProgress_start (by omega) hle⟩
  have hend := runSteps_count_induct (P := fun x => x.word ≠ 0x80#8 ∧ ¬ edgeWord c x.word)
    (I := HeldProgress c s (iterationBase s.seqPhase.toNat)) (fun _ _ _ _ _ hq h _ hx => h.performed hbase hq hx)
    (fun x hx => hquiet x (List.mem_of_mem_take hx)) hstart hrun
  have hphase := hend.progress.phase
  refine ⟨hend.capture, hend.enables, by omega, fun hcount => ?_⟩
  have henough : iterationBase s.seqPhase.toNat + 7 ≤ s.seqPhase.toNat - 4 + seqCount k s.stimuli := by
    unfold iterationBase
    rcases hcount with ⟨hp, h7⟩ | h13
    · have hp4 : s.seqPhase.toNat = 4 := by simp [hp]
      rw [if_pos hp4]
      omega
    · split_ifs <;> omega
  have hread := readAt_lt_zeroAt c
  have hzero := zeroAt_lt_driveAt c
  have hdrive := driveAt_lt c
  exact ⟨hend.progress.read (by omega), hend.progress.driven (by omega)⟩

end Sys2Proof.Machine

/-! ## The gate along a run (41_gate.md R147, 60_exceptions.md R234) -/

namespace Sys2Proof.Machine

/-! ### How near the release is -/

/-- The gate, started at `S`, has seen `q` SEQ_STEPs since the timeout: it has released, or its phase is past `q`, so
that no more than `4 - q` further moves bring an evaluation. -/
structure GateProgress (S q : Nat) (s : State) : Prop where
  phase_pos : 1 ≤ s.seqPhase.toNat
  waiting : s.seqPhase.toNat < 4 → q < s.seqPhase.toNat ∧ s.gateT0 = wmod s.cfg.clkBits S
  released : 4 ≤ s.seqPhase.toNat → Released s

namespace GateProgress

variable {S q : Nat} {s t u : State} {x : Stimulus}

theorem mono {q' : Nat} (h : GateProgress S q s) (hq : q' ≤ q) : GateProgress S q' s :=
  ⟨h.phase_pos, fun hp => ⟨hq.trans_lt (h.waiting hp).1, (h.waiting hp).2⟩, h.released⟩

/-- Three moves are enough. -/
theorem released_of_three (h : GateProgress S q s) (hq : 3 ≤ q) : Released s := by
  refine h.released (Nat.le_of_not_lt fun hp => ?_)
  obtain ⟨hlt, -⟩ := h.waiting hp
  omega

theorem of_released (h : Released s) : GateProgress S q s := by
  have h4 : 4 ≤ s.seqPhase.toNat := h.1
  exact ⟨by omega, fun hp => by omega, fun _ => h⟩

/-- What keeps the phase, the gate's registers, the enables and the parameters keeps the progress. -/
theorem congr (h : GateProgress S q s) (hphase : t.seqPhase = s.seqPhase) (hgate : SameGate s t)
    (henables : SameEnables s t) (hcfg : t.cfg = s.cfg) : GateProgress S q t := by
  obtain ⟨hT0, -, hcause⟩ := hgate
  obtain ⟨henL, henR⟩ := henables
  refine ⟨hphase ▸ h.phase_pos, ?_, ?_⟩
  · rw [hphase, hT0, hcfg]
    exact h.waiting
  · rw [hphase, Released, hphase, henL, henR, hcause]
    exact h.released

end GateProgress

/-- The release is permanent: no stimulus but RESET undoes it (R145). -/
theorem Released.performed {x : Stimulus} {u t : State} (h : Released u) (hx : Performed x u t)
    (hreset : x.word ≠ 0x80#8) : Released t := by
  obtain ⟨h4, h10, henL, henR, hcause⟩ := h
  obtain ⟨⟨henL', henR'⟩, hcause', h4', h10'⟩ := hx.loop hreset h4 h10
  exact ⟨h4', h10', henL'.trans henL, henR'.trans henR, by rwa [hcause']⟩

theorem released_gateRelease {s : State} (hv : s.gateVerdict ≠ causeNone) :
    Released (s.gateObserve.release s.gateVerdict) :=
  ⟨by simp [release_eq], by simp [release_eq], rfl, rfl, gateVerdict_of_ne_none hv⟩

namespace GateProgress

variable {S q : Nat} {s t u : State} {x : Stimulus}

/-- A move of the waiting sequencer: to the next phase, or through an evaluation, which at a time in the window
releases. -/
theorem seqMove (h : GateProgress S q u) (hm : SeqMove u t) :
    GateProgress S 0 t ∧
      (S + u.cfg.gateTimeout ≤ u.time → u.time < S + 2 ^ u.cfg.clkBits → GateProgress S (q + 1) t) := by
  have hpos := h.phase_pos
  have hwaiting := h.waiting
  by_cases h4 : 4 ≤ u.seqPhase.toNat
  · obtain ⟨-, h10, henL, henR, hcause⟩ := h.released h4
    obtain ⟨⟨-, -, hcause'⟩, henL', henR'⟩ := hm.loop_frame h4
    have hphase := hm.loop_phase h4
    have hreleased : Released t :=
      ⟨by omega, by omega, henL'.trans henL, henR'.trans henR, by rwa [hcause']⟩
    exact ⟨.of_released hreleased, fun _ _ => .of_released hreleased⟩
  obtain ⟨hq, hT0⟩ := hwaiting (by omega)
  cases hm with
  | gateReadL hp =>
    have hq0 : q < 1 := by simpa [hp] using hq
    have hnext : GateProgress S (q + 1) (u.takeSnapshot .L phGReadR) :=
      ⟨by simp [takeSnapshot_eq], fun _ => ⟨Nat.succ_lt_succ hq0, hT0⟩, by simp [takeSnapshot_eq]⟩
    exact ⟨hnext.mono (Nat.zero_le _), fun _ _ => hnext⟩
  | gateReadR hp =>
    have hq1 : q < 2 := by simpa [hp] using hq
    have hnext : GateProgress S (q + 1) (u.takeSnapshot .R phGEval) :=
      ⟨by simp [takeSnapshot_eq], fun _ => ⟨Nat.succ_lt_succ hq1, hT0⟩, by simp [takeSnapshot_eq]⟩
    exact ⟨hnext.mono (Nat.zero_le _), fun _ _ => hnext⟩
  | gateBack hp hv =>
    obtain ⟨hT0', -, -, -, -, -, hcfg, -⟩ := evalFrame_gateObserve u
    refine ⟨⟨by simp, fun _ => ⟨by simp, ?_⟩, by simp⟩, fun htime hlt =>
      absurd hv (gateVerdict_ne_none_of_timeout hT0 htime hlt)⟩
    rw [writePhase_gateT0, writePhase_cfg, hT0', hcfg]
    exact hT0
  | gateRelease hp hv =>
    have hreleased := released_gateRelease hv
    exact ⟨.of_released hreleased, fun _ _ => .of_released hreleased⟩
  | gateStart hp => simp [hp] at hpos
  | loopReadL hp | loopReadR hp | mapZeroL hp | mapDriveL hp | mapZeroR hp | mapDriveR hp => simp [hp] at h4
  | loopDiag hp => simp [hp] at h4

theorem edge {c : Channel} {i : Instr} (h : GateProgress S q u) (hi : i = riseOf c ∨ i = fallOf c)
    (he : exec i u = .next t) : GateProgress S q t := by
  obtain ⟨⟨hphase, hgate, -, -, -, -, henables, -⟩, hcfg, -⟩ := edge_frame hi he
  exact h.congr hphase hgate henables hcfg

/-- Any stimulus but RESET keeps the gate started. -/
theorem performed (h : GateProgress S q u) (hx : Performed x u t) (hreset : x.word ≠ 0x80#8) : GateProgress S 0 t := by
  cases hx with
  | edge c i hw hi hd he => exact (h.edge hi he).mono (Nat.zero_le _)
  | seq hw hm => exact (h.seqMove hm).1
  | reset hw => exact absurd hw hreset

/-- At a time in the window each SEQ_STEP counts. -/
theorem performed_in_window (h : GateProgress S q u) (hx : Performed x u t) (hreset : x.word ≠ 0x80#8)
    (htime : S + u.cfg.gateTimeout ≤ u.time) (hlt : u.time < S + 2 ^ u.cfg.clkBits) :
    GateProgress S (q + seqMoves x) t := by
  cases hx with
  | edge c i hw hi hd he =>
    rw [seqMoves_of_ne (edgeWord_ne_seq hw)]
    exact h.edge hi he
  | seq hw hm =>
    rw [seqMoves_of_seq hw]
    exact (h.seqMove hm).2 htime hlt
  | reset hw => exact absurd hw hreset

theorem advance (h : GateProgress S q s) (x : Stimulus) (rest : List Stimulus) : GateProgress S q (s.advance x rest) :=
  h.congr rfl ⟨rfl, rfl, rfl⟩ ⟨rfl, rfl⟩ rfl

end GateProgress

/-- An open gate waits, whatever its phase. -/
theorem GateOpen.progress {S : Nat} {s : State} (h : GateOpen S s) : GateProgress S 0 s := by
  have hphase : s.seqPhase.toNat = 1 ∨ s.seqPhase.toNat = 2 ∨ s.seqPhase.toNat = 3 := by
    rcases h.phase with hp | hp | hp <;> simp [hp]
  exact ⟨by omega, fun _ => ⟨by omega, h.gateT0⟩, fun _ => by omega⟩

/-! ### A finite stream past the timeout -/

/-- A stimulus that R147's provisos allow: no RESET, at a time from `S + GATE_TIMEOUT` up to `S + 2^W`. -/
def InWindow (k : Config) (S : Nat) (x : Stimulus) : Prop :=
  x.word ≠ 0x80#8 ∧ S + k.gateTimeout ≤ x.t ∧ x.t < S + 2 ^ k.clkBits

/-- With the parameters `k`, the gate has made the progress `q`. -/
def GateProgressOf (k : Config) (S q : Nat) (s : State) : Prop := s.cfg = k ∧ GateProgress S q s

/-- In the window each stimulus counts the moves it asks for. -/
theorem GateProgressOf.performed {k : Config} {S q : Nat} {x : Stimulus} {s t : State} {rest : List Stimulus}
    (h : GateProgressOf k S q s) (hw : InWindow k S x) (hx : Performed x (s.advance x rest) t) :
    GateProgressOf k S (q + seqMoves x) t := by
  obtain ⟨hcfg, hprogress⟩ := h
  obtain ⟨hreset, htime, hlt⟩ := hw
  refine ⟨hx.cfg_eq.trans hcfg, (hprogress.advance x rest).performed_in_window hx hreset ?_ ?_⟩
  · rw [advance_cfg, hcfg]
    exact htime
  · rw [advance_cfg, hcfg]
    exact hlt

/-- Settles O40: three SEQ_STEPs among the stimuli bring an evaluation, and each evaluation has a verdict. -/
theorem gateAlwaysReleases : Obligations.GateAlwaysReleases := by
  intro S s hopen hplain hreset htimes hcount
  have hphase : s.seqPhase.toNat ≤ 10 := by rcases hopen.phase with hp | hp | hp <;> simp [hp]
  obtain ⟨t, ht⟩ := runSteps_plain (rest := []) (List.append_nil _).symm hplain hphase
  have hwindow : ∀ x ∈ s.stimuli.take s.stimuli.length, InWindow s.cfg S x := fun x hx =>
    ⟨hreset x (List.mem_of_mem_take hx), htimes x (List.mem_of_mem_take hx)⟩
  have hend := runSteps_count_induct (I := GateProgressOf s.cfg S) (fun _ _ _ _ _ hw h _ hx => h.performed hw hx)
    hwindow ⟨rfl, hopen.progress⟩ ht
  have hthree : 3 ≤ 0 + seqCount s.stimuli.length s.stimuli := by
    rw [seqCount, List.take_length, Nat.zero_add]
    exact hcount
  obtain ⟨h4, -, henL, henR, -⟩ := hend.2.released_of_three hthree
  exact ⟨t, ht, h4, henL, henR⟩

/-! ### Infinite runs -/

/-- Only the sequencer and RESET write the phase. -/
theorem Performed.phase_eq {x : Stimulus} {u t : State} (h : Performed x u t) (hreset : x.word ≠ 0x80#8)
    (hseq : x.word ≠ 0x40#8) : t.seqPhase = u.seqPhase := by
  cases h with
  | edge c i hw hi hd he =>
    obtain ⟨⟨hphase, -⟩, -⟩ := edge_frame hi he
    exact hphase
  | seq hw hm => exact absurd hw hseq
  | reset hw => exact absurd hw hreset

namespace IsRun

variable {env : Nat → Stimulus} {ρ : Nat → State}

theorem performed (h : IsRun env ρ) (n : Nat) : Performed (env n) ((ρ n).advance (env n) []) (ρ (n + 1)) :=
  (supply_performed (h n)).2

theorem cfg_eq (h : IsRun env ρ) (n : Nat) : (ρ n).cfg = (ρ 0).cfg := by
  induction n with
  | zero => rfl
  | succ n ih => exact (h.performed n).cfg_eq.trans ih

/-- T never decreases along the environment (R17). -/
theorem times_monotone (h : IsRun env ρ) : Monotone fun n => (env n).t := by
  refine monotone_nat_of_le_succ fun n => ?_
  have htime : (ρ (n + 1)).time = (env n).t := (h.performed n).time_eq
  exact htime ▸ (supply_performed (h (n + 1))).1

/-- A property of states that each stimulus from number `a` up to number `b` keeps. -/
theorem keeps_between (h : IsRun env ρ) {P : State → Prop} {a b : Nat} (hab : a ≤ b) (ha : P (ρ a))
    (hstep : ∀ n, a ≤ n → n < b → P (ρ n) → Performed (env n) ((ρ n).advance (env n) []) (ρ (n + 1)) → P (ρ (n + 1))) :
    P (ρ b) := by
  induction b, hab using Nat.le_induction with
  | base => exact ha
  | succ b hab ih =>
    exact hstep b hab (Nat.lt_succ_self b) (ih fun n hn hnb => hstep n hn (hnb.trans (Nat.lt_succ_self b)))
      (h.performed b)

/-- Between two SEQ_STEPs, and without RESET, the phase stays. -/
theorem phase_between (h : IsRun env ρ) (hreset : NoReset env) {a b : Nat} (hab : a ≤ b)
    (hno : ∀ n, a ≤ n → n < b → (env n).word ≠ 0x40#8) : (ρ b).seqPhase = (ρ a).seqPhase := by
  refine h.keeps_between (P := fun u => u.seqPhase = (ρ a).seqPhase) hab rfl fun n hn hnb hp hx => ?_
  exact (hx.phase_eq (hreset n) (hno n hn hnb)).trans hp

/-- A released gate stays released. -/
theorem released_from (h : IsRun env ρ) (hreset : NoReset env) {a b : Nat} (hab : a ≤ b) (ha : Released (ρ a)) :
    Released (ρ b) :=
  h.keeps_between hab ha fun n _ _ hn hx => Released.performed (u := (ρ n).advance (env n) []) hn hx (hreset n)

end IsRun

/-- From every point on there is a next SEQ_STEP. -/
theorem SeqForever.next {env : Nat → Stimulus} (h : SeqForever env) (a : Nat) :
    ∃ b, a ≤ b ∧ (env b).word = 0x40#8 ∧ ∀ n, a ≤ n → n < b → (env n).word ≠ 0x40#8 := by
  classical
  have hex : ∃ b, a ≤ b ∧ (env b).word = 0x40#8 := h a
  obtain ⟨hab, hseq⟩ := Nat.find_spec hex
  exact ⟨Nat.find hex, hab, hseq, fun n hn hlt hw => Nat.find_min hex hlt ⟨hn, hw⟩⟩

/-! ### Fair runs: the loop -/

/-- A LOOP_DIAG performed as number `m`: its report, and the way back to phase 4 (R203). -/
def LoopDiagAt (env : Nat → Stimulus) (ρ : Nat → State) (m : Nat) : Prop :=
  (ρ m).seqPhase = phLDiag ∧ (env m).word = 0x40#8 ∧ (ρ (m + 1)).seqPhase = phLReadL ∧
    (ρ (m + 1)).diag = (ρ m).diag ++ [.loopReport (ρ m).snapL (ρ m).snapR]

/-- Each SEQ_STEP brings the iteration one phase on, so `d` of them bring it from phase `10 - d` to its report. -/
theorem exists_loopDiagAt {env : Nat → Stimulus} {ρ : Nat → State} (h : IsRun env ρ) (hforever : SeqForever env)
    (hreset : NoReset env) (d : Nat) : ∀ n, 4 ≤ (ρ n).seqPhase.toNat → (ρ n).seqPhase.toNat + d = 10 →
      ∃ m, n ≤ m ∧ LoopDiagAt env ρ m := by
  induction d with
  | zero =>
    intro n h4 h10
    obtain ⟨m, hnm, hw, hno⟩ := hforever.next n
    have hphase : (ρ m).seqPhase = phLDiag :=
      (h.phase_between hreset hnm hno).trans (BitVec.eq_of_toNat_eq (by simpa using h10))
    have hm := (h.performed m).seqMove hw
    obtain ⟨-, -, -, hback⟩ := hm.next_phase
    obtain ⟨-, -, hreport⟩ := hm.diag
    exact ⟨m, hnm, hphase, hw, hback hphase, hreport hphase⟩
  | succ d ih =>
    intro n h4 h10
    obtain ⟨m, hnm, hw, hno⟩ := hforever.next n
    have hphase : (ρ m).seqPhase = (ρ n).seqPhase := h.phase_between hreset hnm hno
    have hnext := ((h.performed m).seqMove hw).loop_phase (by rw [advance_seqPhase, hphase]; exact h4)
    rw [advance_seqPhase, hphase] at hnext
    obtain ⟨k, hmk, hdiag⟩ := ih (m + 1) (by omega) (by omega)
    exact ⟨k, by omega, hdiag⟩

/-- Settles O47. -/
theorem fairRunCompletesLoopIterations : Obligations.FairRunCompletesLoopIterations := by
  intro env ρ h hfair hreset n h4 h10
  exact exists_loopDiagAt h hfair.seqForever hreset (10 - (ρ n).seqPhase.toNat) n h4 (by omega)

/-! ### Fair runs: the release -/

/-- In phase 0 a move starts the gate (R141). -/
theorem SeqMove.gateStart_of_phase {u t : State} (h : SeqMove u t) (hp0 : u.seqPhase = phGStart) :
    t.seqPhase = phGReadL ∧ t.gateT0 = u.now := by
  cases h with
  | gateStart hp => exact ⟨rfl, rfl⟩
  | gateReadL hp | gateReadR hp | gateBack hp | gateRelease hp => simp [hp] at hp0
  | loopReadL hp | loopReadR hp | mapZeroL hp | mapDriveL hp | mapZeroR hp | mapDriveR hp => simp [hp] at hp0
  | loopDiag hp => simp [hp] at hp0

/-- The first SEQ_STEP of a run from phase 0 performs GATE_START. -/
theorem gateStart_of_firstSeq {env : Nat → Stimulus} {ρ : Nat → State} (h : IsRun env ρ) (hreset : NoReset env)
    (h0 : (ρ 0).seqPhase = phGStart) {m : Nat} (hm : FirstSeq env m) :
    (ρ (m + 1)).seqPhase = phGReadL ∧ (ρ (m + 1)).gateT0 = wmod (ρ 0).cfg.clkBits (env m).t := by
  obtain ⟨hw, hfirst⟩ := hm
  have hphase : (ρ m).seqPhase = phGStart :=
    (h.phase_between hreset (Nat.zero_le m) fun n _ hn => hfirst n hn).trans h0
  have hstarted := ((h.performed m).seqMove hw).gateStart_of_phase hphase
  rwa [advance_now, h.cfg_eq m] at hstarted

section Release

variable {env : Nat → Stimulus} {ρ : Nat → State} {S q : Nat}

/-- Along stimuli in the window the progress is kept, and the SEQ_STEP at the end counts. -/
theorem gateProgress_seq (h : IsRun env ρ) {a b : Nat} (hab : a ≤ b)
    (hwindow : ∀ n, a ≤ n → n ≤ b → InWindow (ρ 0).cfg S (env n)) (hw : (env b).word = 0x40#8)
    (ha : GateProgressOf (ρ 0).cfg S q (ρ a)) : GateProgressOf (ρ 0).cfg S (q + 1) (ρ (b + 1)) := by
  have hb : GateProgressOf (ρ 0).cfg S q (ρ b) := by
    refine h.keeps_between hab ha fun n hn hnb hp hx => ?_
    obtain ⟨hcfg, hprogress⟩ := hp.performed (hwindow n hn hnb.le) hx
    exact ⟨hcfg, hprogress.mono (Nat.le_add_right _ _)⟩
  have hlast := hb.performed (hwindow b hab le_rfl) (h.performed b)
  rwa [seqMoves_of_seq hw] at hlast

/-- Three SEQ_STEPs in the window after the start release the gate for good. -/
theorem released_of_seqsPastTimeout (h : IsRun env ρ) (hreset : NoReset env) {m k : Nat}
    (hstart : GateProgress (env m).t 0 (ρ (m + 1))) (hk : SeqsPastTimeout (ρ 0).cfg env m k) {n : Nat} (hn : k < n) :
    Released (ρ n) := by
  obtain ⟨i, j, hmi, hij, hjk, hwi, hwj, hwk, htime, hlt⟩ := hk
  have hwindow : ∀ a, i ≤ a → a ≤ k → InWindow (ρ 0).cfg (env m).t (env a) := fun a hia hak =>
    ⟨hreset a, htime.trans (h.times_monotone hia), (h.times_monotone hak).trans_lt hlt⟩
  have hi : GateProgressOf (ρ 0).cfg (env m).t 0 (ρ i) :=
    ⟨h.cfg_eq i, h.keeps_between (Nat.succ_le_of_lt hmi) hstart fun a _ _ hp hx =>
      (hp.advance (env a) []).performed hx (hreset a)⟩
  have hone := gateProgress_seq h le_rfl (fun a ha hai => hwindow a ha (by omega)) hwi hi
  have htwo := gateProgress_seq h (Nat.succ_le_of_lt hij) (fun a ha haj => hwindow a (by omega) (by omega)) hwj hone
  have hthree := gateProgress_seq h (Nat.succ_le_of_lt hjk) (fun a ha hak => hwindow a (by omega) hak) hwk htwo
  exact h.released_from hreset (Nat.succ_le_of_lt hn) (hthree.2.released_of_three le_rfl)

/-- The next SEQ_STEP after a SEQ_STEP comes within the gap. -/
theorem next_seq_within {D : Nat} (hforever : SeqForever env) (hgaps : SeqGapsWithin D env) {a : Nat}
    (hw : (env a).word = 0x40#8) : ∃ b, a < b ∧ (env b).word = 0x40#8 ∧ (env b).t ≤ (env a).t + D := by
  obtain ⟨b, hab, hwb, hno⟩ := hforever.next (a + 1)
  exact ⟨b, hab, hwb, hgaps a b hab hw hwb fun n hn hnb => hno n hn hnb⟩

/-- Stimulus `a` is a SEQ_STEP at a time not after `T0`. -/
def SeqUntil (env : Nat → Stimulus) (T0 a : Nat) : Prop := (env a).word = 0x40#8 ∧ (env a).t ≤ T0

/-- A last SEQ_STEP not after the time `T0`, which some stimulus is after, since T is unbounded. -/
theorem exists_last_seqUntil (hmono : Monotone fun n => (env n).t) (htimes : TimeUnbounded env) {m T0 : Nat}
    (hm : SeqUntil env T0 m) : ∃ a, m ≤ a ∧ SeqUntil env T0 a ∧ ∀ b, a < b → ¬ SeqUntil env T0 b := by
  classical
  obtain ⟨N, hN⟩ := htimes (T0 + 1)
  have hbound : ∀ b, SeqUntil env T0 b → b ≤ N := fun b ⟨_, hb⟩ => by
    by_contra hlt
    have hNb : (env N).t ≤ (env b).t := hmono (by omega)
    omega
  refine ⟨Nat.findGreatest (SeqUntil env T0) N, Nat.le_findGreatest (hbound m hm) hm,
    Nat.findGreatest_spec (hbound m hm) hm, fun b hb hbT => ?_⟩
  exact absurd (Nat.le_findGreatest (hbound b hbT) hbT) (Nat.not_le.mpr hb)

/-- SEQ_STEPs at most `D` µs apart cannot pass the window over before three of them have come. -/
theorem exists_seqsPastTimeout (h : IsRun env ρ) (hfair : Fair env) {D m : Nat} (hw : (env m).word = 0x40#8)
    (hgaps : SeqGapsWithin D env) (hroom : (ρ 0).cfg.gateTimeout + 3 * D < 2 ^ (ρ 0).cfg.clkBits) :
    ∃ k, SeqsPastTimeout (ρ 0).cfg env m k := by
  obtain ⟨a, hma, ⟨hwa, hta⟩, hlater⟩ := exists_last_seqUntil (T0 := (env m).t + (ρ 0).cfg.gateTimeout)
    h.times_monotone hfair.timeUnbounded ⟨hw, Nat.le_add_right _ _⟩
  obtain ⟨i, hai, hwi, hti⟩ := next_seq_within hfair.seqForever hgaps hwa
  obtain ⟨j, hij, hwj, htj⟩ := next_seq_within hfair.seqForever hgaps hwi
  obtain ⟨k, hjk, hwk, htk⟩ := next_seq_within hfair.seqForever hgaps hwj
  have htimeout : (env m).t + (ρ 0).cfg.gateTimeout < (env i).t := Nat.lt_of_not_le fun hle => hlater i hai ⟨hwi, hle⟩
  exact ⟨k, i, j, by omega, hij, hjk, hwi, hwj, hwk, htimeout.le, by omega⟩

end Release

/-- Settles O46: the first SEQ_STEP starts the gate, and three in the window release it; short gaps bring three. -/
theorem fairRunReleasesGate : Obligations.FairRunReleasesGate := by
  intro env ρ h hfair hreset h0
  obtain ⟨m, -, hw, hno⟩ := hfair.seqForever.next 0
  have hfirst : FirstSeq env m := ⟨hw, fun n hn => hno n (Nat.zero_le n) hn⟩
  obtain ⟨hphase, hT0⟩ := gateStart_of_firstSeq h hreset h0 hfirst
  have hstart : GateProgress (env m).t 0 (ρ (m + 1)) :=
    ⟨by simp [hphase], fun _ => ⟨by simp [hphase], by rw [hT0, h.cfg_eq (m + 1)]⟩, by simp [hphase]⟩
  refine ⟨m, hfirst, hphase, hT0, fun k hk n hn => released_of_seqsPastTimeout h hreset hstart hk hn,
    fun D hgaps hroom => ?_⟩
  obtain ⟨k, hk⟩ := exists_seqsPastTimeout h hfair hw hgaps hroom
  exact ⟨k, fun n hn => released_of_seqsPastTimeout h hreset hstart hk hn⟩

/-! ### Unfair runs (R147, R234) -/

/-- The gate has not released, its durations are positive, and its origins, once latched, sample the time `T`. -/
structure GateStands (T : Nat) (s : State) : Prop where
  window_pos : 0 < s.cfg.gateWindow
  timeout_pos : 0 < s.cfg.gateTimeout
  phase_lt : s.seqPhase.toNat < 4
  origins : 1 ≤ s.seqPhase.toNat → s.gateT0 = wmod s.cfg.clkBits T ∧ s.streakT0 = wmod s.cfg.clkBits T

namespace GateStands

variable {T : Nat} {s t u : State}

/-- At the time of its origins no time has passed for an evaluation. -/
theorem gateVerdict_none (h : GateStands T s) (htime : s.time = T) (hp : 1 ≤ s.seqPhase.toNat) :
    s.gateVerdict = causeNone := by
  obtain ⟨hT0, hstreak⟩ := h.origins hp
  have hwindow := h.window_pos
  have htimeout := h.timeout_pos
  have hnow : s.now = wmod s.cfg.clkBits T := by rw [State.now, htime]
  have hzero : s.sub s.now s.gateT0 = 0 := by rw [hT0, hnow, State.sub, wsub_self]
  have hzero' : s.sub s.now s.streakT0 = 0 := by rw [hstreak, hnow, State.sub, wsub_self]
  rcases gateVerdict_cases s with ⟨-, -, hw⟩ | ⟨-, hto, -⟩ | ⟨hv, -⟩
  · omega
  · omega
  · exact hv

theorem congr (h : GateStands T s) (hcfg : t.cfg = s.cfg) (hphase : t.seqPhase = s.seqPhase)
    (hT0 : t.gateT0 = s.gateT0) (hstreak : t.streakT0 = s.streakT0) : GateStands T t := by
  refine ⟨hcfg ▸ h.window_pos, hcfg ▸ h.timeout_pos, hphase ▸ h.phase_lt, ?_⟩
  rw [hphase, hcfg, hT0, hstreak]
  exact h.origins

/-- A move at the time `T` latches it, or finds it latched, and is never the release. -/
theorem seqMove (h : GateStands T u) (htime : u.time = T) (hm : SeqMove u t) :
    GateStands T t ∧ 1 ≤ t.seqPhase.toNat := by
  have hlt := h.phase_lt
  have hnow : u.now = wmod u.cfg.clkBits T := by rw [State.now, htime]
  cases hm with
  | gateStart hp => exact ⟨⟨h.window_pos, h.timeout_pos, by simp, fun _ => ⟨hnow, hnow⟩⟩, by simp⟩
  | gateReadL hp | gateReadR hp =>
    exact ⟨⟨h.window_pos, h.timeout_pos, by simp [takeSnapshot_eq], fun _ => h.origins (by simp [hp])⟩,
      by simp [takeSnapshot_eq]⟩
  | gateBack hp hv =>
    obtain ⟨hT0, hstreak⟩ := h.origins (by simp [hp])
    obtain ⟨hkept, -, -, -, -, -, hcfg, -⟩ := evalFrame_gateObserve u
    refine ⟨⟨?_, ?_, by simp, fun _ => ⟨?_, ?_⟩⟩, by simp⟩
    · rw [writePhase_cfg, hcfg]
      exact h.window_pos
    · rw [writePhase_cfg, hcfg]
      exact h.timeout_pos
    · rw [writePhase_gateT0, writePhase_cfg, hcfg, hkept, hT0]
    · rw [writePhase_streakT0, writePhase_cfg, hcfg]
      rcases gateObserve_streakT0 u with hs | hs
      · rw [hs, hstreak]
      · rw [hs, hnow]
  | gateRelease hp hv => exact absurd (h.gateVerdict_none htime (by simp [hp])) hv
  | loopReadL hp | loopReadR hp | mapZeroL hp | mapDriveL hp | mapZeroR hp | mapDriveR hp => simp [hp] at hlt
  | loopDiag hp => simp [hp] at hlt

theorem advance (h : GateStands T s) (x : Stimulus) (rest : List Stimulus) : GateStands T (s.advance x rest) :=
  h.congr rfl rfl rfl rfl

/-- At the time `T` no stimulus releases the gate, RESET among them. -/
theorem performed {x : Stimulus} (h : GateStands T u) (htime : u.time = T) (hx : Performed x u t) :
    GateStands T t := by
  cases hx with
  | edge c i hw hi hd he =>
    obtain ⟨⟨hphase, ⟨hT0, hstreak, -⟩, -⟩, hcfg, -⟩ := edge_frame hi he
    exact h.congr hcfg hphase hT0 hstreak
  | seq hw hm => exact (h.seqMove htime hm).1
  | reset hw => exact ⟨h.window_pos, h.timeout_pos, by simp, by simp⟩

end GateStands

/-- In a run whose T stands still the gate never releases. -/
theorem gateStands_of_run {env : Nat → Stimulus} {ρ : Nat → State} {T : Nat} (h : IsRun env ρ)
    (h0 : (ρ 0).seqPhase = phGStart) (hwindow : 0 < (ρ 0).cfg.gateWindow) (htimeout : 0 < (ρ 0).cfg.gateTimeout)
    (htime : ∀ n, (env n).t = T) (n : Nat) : GateStands T (ρ n) := by
  induction n with
  | zero => exact ⟨hwindow, htimeout, by simp [h0], by simp [h0]⟩
  | succ n ih => exact (ih.advance (env n) []).performed (htime n) (h.performed n)

/-- SEQ_STEPs forever, at the time 0. -/
def stillSeqs (_ : Nat) : Stimulus := ⟨0x40#8, 0, none⟩

/-- Before stimulus `n` of that environment: the gate stands, started by stimulus 0. -/
def StillInv (n : Nat) (u : State) : Prop := u.time = 0 ∧ GateStands 0 u ∧ (1 ≤ n → 1 ≤ u.seqPhase.toNat)

theorem stillInv_step (n : Nat) (u : State) (h : StillInv n u) :
    ∃ t, step (u.supply (stillSeqs n)) = .next t ∧ StillInv (n + 1) t := by
  obtain ⟨htime, hstands, -⟩ := h
  have hlt := hstands.phase_lt
  have hstep := step_supply (s := u) (x := stillSeqs n) htime.le (decode_encode .seqStep)
    (holds_plain u _ rfl)
  obtain ⟨t, he⟩ := exec_seqStep_next (s := u.advance (stillSeqs n) []) (by rw [advance_seqPhase]; omega)
  obtain ⟨ht, hpos⟩ := (hstands.advance (stillSeqs n) []).seqMove rfl (seqMove_of_exec he)
  obtain ⟨-, htime', -⟩ := exec_env he
  exact ⟨t, hstep.trans he, htime', ht, fun _ => hpos⟩

/-- One SEQ_STEP, then left rises as T goes on. -/
def onlyRises (n : Nat) : Stimulus := if n = 0 then ⟨0x40#8, 0, none⟩ else ⟨0x01#8, n, none⟩

/-- Before stimulus `n` of that environment: the gate has been started by stimulus 0 and waits for its first read. -/
def RisesInv (n : Nat) (u : State) : Prop := u.time ≤ n ∧ u.seqPhase = if n = 0 then phGStart else phGReadL

theorem risesInv_step (n : Nat) (u : State) (h : RisesInv n u) :
    ∃ t, step (u.supply (onlyRises n)) = .next t ∧ RisesInv (n + 1) t := by
  obtain ⟨htime, hphase⟩ := h
  cases n with
  | zero =>
    have hstep := step_supply (s := u) (x := onlyRises 0) htime (decode_encode .seqStep)
      (holds_plain u _ rfl)
    have hp : (u.advance (onlyRises 0) []).seqPhase = phGStart := hphase
    have hstart := exec_seqStep_of_decodePhase ((congrArg decodePhase hp).trans (decode_encode .gateStart))
    exact ⟨_, hstep.trans (hstart.trans (exec_gateStart _)), Nat.zero_le _, rfl⟩
  | succ n =>
    have hstep := step_supply (s := u) (x := onlyRises (n + 1)) htime (decode_encode .edgeRiseL)
      (holds_plain u _ rfl)
    exact ⟨_, hstep.trans (exec_edgeRiseL _), Nat.le_succ (n + 1), hphase⟩

/-- The half of fairness that fails with T bounded. -/
theorem exists_run_seqForever_not_timeUnbounded : ∃ env ρ, ρ 0 = State.reset ∧ IsRun env ρ ∧ SeqForever env ∧
    ¬ TimeUnbounded env ∧ NoReset env ∧ ∀ n, 1 ≤ n → 1 ≤ (ρ n).seqPhase.toNat ∧ (ρ n).seqPhase.toNat < 4 := by
  obtain ⟨ρ, h0, hrun, hinv⟩ := exists_isRun (s := State.reset) (I := StillInv)
    ⟨rfl, ⟨by decide, by decide, by decide, fun h => absurd h (by decide)⟩, fun h => absurd h (by decide)⟩ stillInv_step
  refine ⟨stillSeqs, ρ, h0, hrun, fun n => ⟨n, le_rfl, rfl⟩, fun h => ?_, fun n => (by decide : (0x40#8) ≠ 0x80#8),
    fun n hn => ?_⟩
  · obtain ⟨n, hn⟩ := h 1
    exact absurd hn (Nat.not_succ_le_zero 0)
  · obtain ⟨-, hstands, hpos⟩ := hinv n
    exact ⟨hpos hn, hstands.phase_lt⟩

/-- The half of fairness that fails with one SEQ_STEP only. -/
theorem exists_run_timeUnbounded_not_seqForever : ∃ env ρ, ρ 0 = State.reset ∧ IsRun env ρ ∧ TimeUnbounded env ∧
    ¬ SeqForever env ∧ NoReset env ∧ ∀ n, 1 ≤ n → 1 ≤ (ρ n).seqPhase.toNat ∧ (ρ n).seqPhase.toNat < 4 := by
  obtain ⟨ρ, h0, hrun, hinv⟩ := exists_isRun (s := State.reset) (I := RisesInv) ⟨le_rfl, rfl⟩ risesInv_step
  refine ⟨onlyRises, ρ, h0, hrun, fun T => ⟨T + 1, Nat.le_succ T⟩, fun h => ?_, fun n => ?_, fun n hn => ?_⟩
  · obtain ⟨n, hn, hw⟩ := h 1
    obtain ⟨k, rfl⟩ := Nat.exists_eq_add_of_le' hn
    have hrise : (0x01#8) = 0x40#8 := hw
    exact absurd hrise (by decide)
  · cases n with
    | zero => exact (by decide : (0x40#8) ≠ 0x80#8)
    | succ n => exact (by decide : (0x01#8) ≠ 0x80#8)
  · obtain ⟨-, hphase⟩ := hinv n
    rw [if_neg (by omega)] at hphase
    simp [hphase]

/-- Settles O48: the run whose T stands still, and a run from reset for each half of fairness that fails alone. -/
theorem unfairRunMayNeverRelease : Obligations.UnfairRunMayNeverRelease :=
  ⟨fun _ _ _ h h0 hwindow htimeout htime n => (gateStands_of_run h h0 hwindow htimeout htime n).phase_lt,
    exists_run_seqForever_not_timeUnbounded, exists_run_timeUnbounded_not_seqForever⟩

end Sys2Proof.Machine
